-- ==== Sys2Proof/Word.lean ====
section
/-! DEFINITION. The widths of the spec's values (00_scope.md R8). -/

namespace Sys2Proof

/-- One byte of a frame or of a ring (R8: "bytes are 8 bits"). -/
abbrev Byte := BitVec 8

/-- The one-bit header fields `sender`, `reset`, `ack` and the parameter `LOCAL_ID` (R8). -/
abbrev Bit := BitVec 1

/-- A message id: 5 bits, 0..31, arithmetic modulo 32 (R8, R23). -/
abbrev MsgId := BitVec 5

/-- The frame checksum and its words (R8). -/
abbrev Half := BitVec 16

/-- The checksum accumulator (R8: "the checksum accumulator is 32 bits"). -/
abbrev Acc := BitVec 32

end Sys2Proof
end

