-- ==== Sys2Proof/Config.lean ====
section
/-! DEFINITION. The parameter record of 00_scope.md R6 and the constants of the wire format. -/

namespace Sys2Proof

/-- `HEADER_LEN`, fixed by the wire format (R6). -/
abbrev headerLen : Nat := 5

/-- `MAX_PAYLOAD_LEN`, fixed by the range of the field (R6). -/
abbrev maxPayloadLen : Nat := 63

/-- `TS_BITS` (R6, decision D7). DESIGN CHOICE, log entry 2: the model fixes the spec's own choice of 64. -/
abbrev tsBits : Nat := 64

/-- A timestamp, an unsigned `TS_BITS`-bit count of microseconds (R8, R213). -/
abbrev Timestamp := BitVec tsBits

/-- The parameters of one link (R6), "fixed when a link is instantiated" (10_state.md R32). -/
structure Params where
  /-- `MAGIC`, the frame-start byte (OPEN, D1). -/
  magic : Byte
  /-- `LOCAL_ID`, this end's sender bit (OPEN, D2). -/
  localId : Bit
  /-- `RETRY_INTERVAL_US`, microseconds between transmissions of a pending message (D8). -/
  retryIntervalUs : Nat
  /-- `MAX_RETRIES` (D8). -/
  maxRetries : Nat
  /-- `MAX_APP_DATA`, the most data bytes a `SEND` takes. -/
  maxAppData : Nat
  /-- `RX_MAX_PAYLOAD_LEN`, the largest `payload_len` the receiver accepts (D4). -/
  rxMaxPayloadLen : Nat
  /-- `TX_BYTES_CAP` (OPEN, D3). -/
  txBytesCap : Nat
  /-- `RX_BYTES_CAP` (OPEN, D3). -/
  rxBytesCap : Nat
  /-- `TX_QUEUE_CAP` (OPEN, D3). -/
  txQueueCap : Nat
  /-- `RX_QUEUE_CAP` (OPEN, D3). -/
  rxQueueCap : Nat
deriving DecidableEq, Repr

/-- `MAX_FRAME_LEN` = `HEADER_LEN + RX_MAX_PAYLOAD_LEN` (R6). -/
def Params.maxFrameLen (p : Params) : Nat := headerLen + p.rxMaxPayloadLen

/-- The example instance of 95_test_vectors.md, link A. DESIGN CHOICE, log entry 1: the values of the OPEN
parameters here are the spec's example, no claim about the hardware; every meaning reads `State.params`. -/
def Params.exampleA : Params where
  magic := 0xEC
  localId := 0
  retryIntervalUs := 2500
  maxRetries := 10
  maxAppData := 62
  rxMaxPayloadLen := 63
  txBytesCap := 128
  rxBytesCap := 128
  txQueueCap := 4
  rxQueueCap := 4

/-- The example instance of 95_test_vectors.md, link B: `LOCAL_ID = 1`. -/
def Params.exampleB : Params := { Params.exampleA with localId := 1 }

end Sys2Proof
end

