-- ==== Sys2Proof/Syntax.lean ====
section
/-! DEFINITION. Messages, events and the one inductive of instructions: a constructor per row of
spec/opcode_table.json. -/

namespace Sys2Proof

/-- A `Message` (10_state.md R21). `magic` and `checksum` are not stored (R21). -/
structure Message where
  /-- Identity of the transmitting party. -/
  sender : Bit
  /-- Link-reset control frame. -/
  reset : Bit
  /-- Acknowledgement control frame. -/
  ack : Bit
  /-- Sequence number, 0..31. -/
  msgId : MsgId
  /-- The payload; `payload_len` is its length. -/
  payload : List Byte
deriving DecidableEq, Repr

/-- The two execution contexts (60_exceptions.md R210), and `any` for `STATUS` (30_encoding.md R80). -/
inductive Context where
  | interruptLevel
  | taskLevel
  | any
deriving DecidableEq, Repr

/-- The interface events, "exactly these" (30_encoding.md R80). -/
inductive Event where
  | rxByte (b : Byte)
  | txOpp (now : Timestamp) (uartReady : Bool)
  | timer (now : Timestamp)
  | send (cmd : Byte) (data : List Byte)
  | enable
  | rxPop
  | status
deriving DecidableEq, Repr

/-- What the decoder finds at the head of `rx_bytes`: the verdicts and frame kinds of 30_encoding.md R79 and R75. -/
inductive Head where
  | notMagic
  | incompleteHeader
  | badLen
  | incompleteFrame
  | badCsum
  | echo (m : Message)
  | ack (m : Message)
  | reset (m : Message)
  | data (m : Message)
deriving DecidableEq, Repr

/-- The result of the codec's `decode` (40_codec.md R106): `Incomplete`, or a message and the bytes it occupies. -/
inductive Decoded where
  | incomplete
  | frame (m : Message) (n : Nat)
deriving DecidableEq, Repr

/-- One constructor per row of spec/opcode_table.json, in the table's order. -/
inductive Instr where
  -- frame kinds, the operand is the decoded message (30_encoding.md R75)
  | echoFrame (m : Message)
  | ackFrame (m : Message)
  | resetFrame (m : Message)
  | dataFrame (m : Message)
  -- verdicts on the head of rx_bytes (R79)
  | notMagic
  | incompleteHeader
  | badLen
  | incompleteFrame
  | badCsum
  -- interface events (R80)
  | rxByte (b : Byte)
  | txOpp (now : Timestamp) (uartReady : Bool)
  | timer (now : Timestamp)
  | send (cmd : Byte) (data : List Byte)
  | enable
  | rxPop
  | status
  -- internal operations (R81)
  | checksum (f : List Byte)
  | checksumOk (f : List Byte)
  | packBitfield (sender reset ack : Bit) (msgId : MsgId)
  | unpackBitfield (b : Byte)
  | encode (m : Message)
  | decode (s : List Byte)
  | findHeader
  | makeAck (id : MsgId)
  | makeReset
  | rxScan
  | linkReset
  | sendReset
  -- the branches of arbiter(now, uart_ready) (42_transmit.md R161 to R168)
  | arbDrain (now : Timestamp) (uartReady : Bool)
  | arbAcked (now : Timestamp) (uartReady : Bool)
  | arbStart (now : Timestamp) (uartReady : Bool)
  | arbRetryDue (now : Timestamp) (uartReady : Bool)
  | arbRetry (now : Timestamp) (uartReady : Bool)
  | arbExhaust (now : Timestamp) (uartReady : Bool)
  | arbWait (now : Timestamp) (uartReady : Bool)
deriving DecidableEq, Repr

/-- The instruction an event is (30_encoding.md R80). -/
def Event.toInstr : Event → Instr
  | .rxByte b => .rxByte b
  | .txOpp now uartReady => .txOpp now uartReady
  | .timer now => .timer now
  | .send cmd data => .send cmd data
  | .enable => .enable
  | .rxPop => .rxPop
  | .status => .status

/-- The context column of 30_encoding.md R80. DESIGN CHOICE, log entry 18: for `STATUS` it is R80's `any`, although the
table of 60_exceptions.md R203 lists `STATUS` at task level. Nothing the machine does depends on it. -/
def Event.context : Event → Context
  | .rxByte _ => .interruptLevel
  | .txOpp _ _ => .interruptLevel
  | .timer _ => .taskLevel
  | .send _ _ => .taskLevel
  | .enable => .taskLevel
  | .rxPop => .taskLevel
  | .status => .any

/-- The instruction a decoded head is. -/
def Head.toInstr : Head → Instr
  | .notMagic => .notMagic
  | .incompleteHeader => .incompleteHeader
  | .badLen => .badLen
  | .incompleteFrame => .incompleteFrame
  | .badCsum => .badCsum
  | .echo m => .echoFrame m
  | .ack m => .ackFrame m
  | .reset m => .resetFrame m
  | .data m => .dataFrame m

end Sys2Proof
end

