-- ==== Sys2Proof/Machine/State.lean ====
section
/-! DEFINITION. The state of one link (10_state.md R22), its ports, its reset, and the reasons a step can stop. -/

namespace Sys2Proof.Machine

/-- The result codes of `SEND`, an enumeration with no numeric encoding (60_exceptions.md R200). -/
inductive SendResult where
  | ok
  | errQueueFull
  | errTooLong
  | errDisabled
deriving DecidableEq, Repr

/-- The observation labels of 60_exceptions.md R202, one per rule branch; no rule reads them. -/
inductive Label where
  /-- `DROP`: a byte that is no `MAGIC` was discarded (R132). -/
  | drop
  /-- `WAIT`: the scan stopped on an incomplete header or frame (R132, R134). -/
  | wait
  | badLen
  | badCsum
  | echo
  | ackRx (id : MsgId)
  | resetRx
  | novel (id : MsgId)
  | dup (id : MsgId)
  | txb (b : Byte)
  | acked (id : MsgId)
  | start (id : MsgId)
  | retry (n : Nat)
  | exhaust (wasReset : Bit)
  | idleWait
deriving DecidableEq, Repr

/-- "One link holds exactly this state" (10_state.md R22). -/
structure Link where
  /-- Written by `ENABLE` alone (R32, R193). -/
  enabled : Bool
  /-- The id the next successful `SEND` assigns (R23). -/
  nextMsgId : MsgId
  /-- The id of the last data frame accepted for delivery, `none` since a link reset (R24). -/
  lastReceivedId : Option MsgId
  /-- The at most one outbound message awaiting acknowledgement (R25). -/
  pending : Option Message
  /-- Retransmissions already made of `pending` (R25). -/
  retryCount : Nat
  /-- When `pending` was last pushed into `tx_bytes` (R25). -/
  lastSendTime : Timestamp
  /-- The id the peer acknowledged last (R27). -/
  peerAck : Option MsgId
  /-- Messages awaiting transmission, oldest first (R28). -/
  txQueue : List Message
  /-- Messages awaiting delivery, oldest first (R28). -/
  rxQueue : List Message
  /-- Encoded bytes not yet emitted, head first (R29). -/
  txBytes : List Byte
  /-- Received bytes not yet consumed, head first (R29). -/
  rxBytes : List Byte
  /-- The timer compare output (60_exceptions.md R212). -/
  wakeDeadline : Option Timestamp
  /-- `st_rx_overrun` (R33). -/
  stRxOverrun : Bool
  /-- `st_ack_dropped` (R33). -/
  stAckDropped : Bool
  /-- `st_rxq_dropped` (R33). -/
  stRxqDropped : Bool
deriving DecidableEq, Repr

/-- The outputs of 30_encoding.md R80, and the results of the internal operations of the opcode table. -/
inductive Output where
  /-- No output: `RX_BYTE`, `TIMER`, `ENABLE`. -/
  | none
  /-- `TX_OPP`: the byte emitted on the UART transmitter, if any. -/
  | emitted (b : Option Byte)
  /-- `SEND`. -/
  | result (r : SendResult)
  /-- `RX_POP`. -/
  | popped (m : Option Message)
  /-- `STATUS`: the state of R22. -/
  | status (l : Link)
  /-- `checksum`. -/
  | half (c : Half)
  /-- `checksum_ok`. -/
  | truth (b : Bool)
  /-- `pack_bitfield`. -/
  | byte (b : Byte)
  /-- `unpack_bitfield`. -/
  | bits (sender reset ack : Bit) (msgId : MsgId)
  /-- `encode`. -/
  | bytes (f : List Byte)
  /-- `decode`. -/
  | decoded (d : Decoded)
  /-- `make_ack`, `make_reset`. -/
  | message (m : Message)
deriving DecidableEq, Repr

/-- One link with its parameters and its ports. `params` and `link` are the spec's; `events`, `out` and `labels` are
the model's own (DESIGN CHOICE, log entries 3 and 4). -/
structure State where
  /-- The parameter record (00_scope.md R6), which no event writes (10_state.md R32). -/
  params : Params
  /-- The link state record (R22). -/
  link : Link
  /-- The events the environment presents, next one first (20_memory.md R61). -/
  events : List Event
  /-- The output of the last operation (30_encoding.md R80). -/
  out : Output
  /-- The labels of the last event, oldest first (60_exceptions.md R202). -/
  labels : List Label
deriving DecidableEq, Repr

/-- Why the machine stops with a fault: never. "No event of the block can fault" (60_exceptions.md R205,
93_implementation_defined.md), so the type has no constructor; safe, since the spec gives every event an outcome. -/
inductive Fault
deriving DecidableEq, Repr

/-- Why an operation of the model is refused. -/
inductive Refusal where
  /-- An arm of `exec` without a meaning; safe. No arm of this model raises it. -/
  | notModelled (mnemonic : String)
  /-- Raised by `instantiate` for parameters that break 20_memory.md R55 ("A model refuses an instantiation that
  breaks one of them"); safe. -/
  | illFormedInstance
  /-- Raised by `System.instantiate` for two links with one `LOCAL_ID` (93_implementation_defined.md X3); safe. -/
  | equalIdentities
deriving DecidableEq, Repr

/-- The link at power-on (10_state.md R38): the values of R37, not enabled, the sticky flags 0. -/
def Link.powerOn : Link where
  enabled := false
  nextMsgId := 0
  lastReceivedId := none
  pending := none
  retryCount := 0
  lastSendTime := 0
  peerAck := none
  txQueue := []
  rxQueue := []
  txBytes := []
  rxBytes := []
  wakeDeadline := none
  stRxOverrun := false
  stAckDropped := false
  stRxqDropped := false

/-- A link instantiated with parameters `p`, its ports empty (R38; log entries 3 and 4 for the ports). -/
def State.powerOn (p : Params) : State where
  params := p
  link := Link.powerOn
  events := []
  out := .none
  labels := []

/-- The machine right after power-on, for the example instance (DESIGN CHOICE, log entry 1). -/
def State.reset : State := State.powerOn Params.exampleA

/-! ### Named updates: one per field -/

def State.setEnabled (s : State) (v : Bool) : State := { s with link := { s.link with enabled := v } }
def State.setNextMsgId (s : State) (v : MsgId) : State := { s with link := { s.link with nextMsgId := v } }
def State.setLastReceivedId (s : State) (v : Option MsgId) : State := { s with link := { s.link with lastReceivedId := v } }
def State.setPending (s : State) (v : Option Message) : State := { s with link := { s.link with pending := v } }
def State.setRetryCount (s : State) (v : Nat) : State := { s with link := { s.link with retryCount := v } }
def State.setLastSendTime (s : State) (v : Timestamp) : State := { s with link := { s.link with lastSendTime := v } }
def State.setPeerAck (s : State) (v : Option MsgId) : State := { s with link := { s.link with peerAck := v } }
def State.setTxQueue (s : State) (v : List Message) : State := { s with link := { s.link with txQueue := v } }
def State.setRxQueue (s : State) (v : List Message) : State := { s with link := { s.link with rxQueue := v } }
def State.setTxBytes (s : State) (v : List Byte) : State := { s with link := { s.link with txBytes := v } }
def State.setRxBytes (s : State) (v : List Byte) : State := { s with link := { s.link with rxBytes := v } }
def State.setWakeDeadline (s : State) (v : Option Timestamp) : State := { s with link := { s.link with wakeDeadline := v } }
def State.setRxOverrun (s : State) (v : Bool) : State := { s with link := { s.link with stRxOverrun := v } }
def State.setAckDropped (s : State) (v : Bool) : State := { s with link := { s.link with stAckDropped := v } }
def State.setRxqDropped (s : State) (v : Bool) : State := { s with link := { s.link with stRxqDropped := v } }
/-- Replaces the environment's schedule (the model's own field). -/
def State.setEvents (s : State) (v : List Event) : State := { s with events := v }
/-- Drives the output port. -/
def State.setOut (s : State) (v : Output) : State := { s with out := v }
/-- Clears the labels, at the start of an event. -/
def State.clearLabels (s : State) : State := { s with labels := [] }
/-- Appends labels (60_exceptions.md R202). -/
def State.addLabels (s : State) (v : List Label) : State := { s with labels := s.labels ++ v }
/-- Appends one label (60_exceptions.md R202). -/
def State.addLabel (s : State) (v : Label) : State := s.addLabels [v]

end Sys2Proof.Machine
end

