-- ==== Sys2Proof/Machine/Flags.lean ====
section
/-! DEFINITION. The sticky status flags (10_state.md R33) and the primitive `flag f` (00_scope.md R12). -/

namespace Sys2Proof.Machine

/-- The three sticky flags (10_state.md R33). -/
inductive StickyFlag where
  | rxOverrun
  | ackDropped
  | rxqDropped
deriving DecidableEq, Repr

/-- `flag f` "sets sticky status flag `f` ... to 1" (00_scope.md R12). -/
def State.flag (f : StickyFlag) (s : State) : State :=
  match f with
  | .rxOverrun => s.setRxOverrun true
  | .ackDropped => s.setAckDropped true
  | .rxqDropped => s.setRxqDropped true

/-- Only `ENABLE` clears the flags (10_state.md R33, 43_link_control.md R193). -/
def State.clearFlags (s : State) : State :=
  ((s.setRxOverrun false).setAckDropped false).setRxqDropped false

end Sys2Proof.Machine
end

