-- ==== Sys2Proof/WellFormed.lean ====
section
/-! DEFINITION. Which parameter records, messages and instructions are well formed. -/

namespace Sys2Proof

/-- The capacity constraints of 20_memory.md R55 and decision D3, and the field ranges of 00_scope.md R6 and R8.
DEDUCED, log entry 10: with a tuned `MAX_APP_DATA` the transmit ring must also hold the largest frame `SEND` builds. -/
def Params.wf (p : Params) : Bool :=
  decide (p.maxFrameLen ≤ p.rxBytesCap) && decide (p.maxFrameLen ≤ p.txBytesCap) &&
  decide (headerLen + (1 + p.maxAppData) ≤ p.txBytesCap) &&
  decide (1 ≤ p.txQueueCap) && decide (1 ≤ p.rxQueueCap) &&
  decide (p.rxMaxPayloadLen ≤ maxPayloadLen) && decide (1 + p.maxAppData ≤ maxPayloadLen)

/-- `len(payload) = payload_len ≤ MAX_PAYLOAD_LEN` (10_state.md R21). -/
def Message.wf (m : Message) : Bool := decide (m.payload.length ≤ maxPayloadLen)

/-- A frame the receiver accepts: its message is well formed and no longer than `RX_MAX_PAYLOAD_LEN` (41_receive.md R133). -/
def Message.receivable (p : Params) (m : Message) : Bool :=
  m.wf && decide (m.payload.length ≤ p.rxMaxPayloadLen)

/-- The operand conditions of each row: the kind conditions of 30_encoding.md R75 for the frames, the operand lines of
40_codec.md for the codec. An event has no condition, since its rule covers every input (60_exceptions.md R205). -/
def Instr.wf (p : Params) : Instr → Bool
  | .echoFrame m => m.receivable p && decide (m.sender = p.localId)
  | .ackFrame m => m.receivable p && decide (m.sender ≠ p.localId) && decide (m.ack = 1)
  | .resetFrame m => m.receivable p && decide (m.sender ≠ p.localId) && decide (m.ack = 0) && decide (m.reset = 1)
  | .dataFrame m => m.receivable p && decide (m.sender ≠ p.localId) && decide (m.ack = 0) && decide (m.reset = 0)
  | .notMagic => true
  | .incompleteHeader => true
  | .badLen => true
  | .incompleteFrame => true
  | .badCsum => true
  | .rxByte _ => true
  | .txOpp _ _ => true
  | .timer _ => true
  | .send _ _ => true
  | .enable => true
  | .rxPop => true
  | .status => true
  | .checksum f => decide (headerLen ≤ f.length)
  | .checksumOk f => decide (headerLen ≤ f.length) && decide (f.length = headerLen + (f.getD 1 0).toNat)
  | .packBitfield _ _ _ _ => true
  | .unpackBitfield _ => true
  | .encode m => m.wf
  | .decode s => decide (s.head? = some p.magic)
  | .findHeader => true
  | .makeAck _ => true
  | .makeReset => true
  | .rxScan => true
  | .linkReset => true
  | .sendReset => true
  | .arbDrain _ _ => true
  | .arbAcked _ _ => true
  | .arbStart _ _ => true
  | .arbRetryDue _ _ => true
  | .arbRetry _ _ => true
  | .arbExhaust _ _ => true
  | .arbWait _ _ => true

end Sys2Proof
end

