-- ==== Sys2Proof/Decode.lean ====
section
/-! DEFINITION. The frame codec (40_codec.md), the receive decoder that classifies the bytes at the head of
`rx_bytes` (30_encoding.md R75, R79), and after them the encoder. -/

namespace Sys2Proof

/-- The byte at offset `i`; every caller has tested the length (20_memory.md R52). -/
def byteAt (s : List Byte) (i : Nat) : Byte := s.getD i 0

/-- A little-endian 16-bit word (20_memory.md R56). -/
def le16 (lo hi : Byte) : Half := lo.setWidth 16 ||| (hi.setWidth 16 <<< 8)

/-- `checksum[7:0]` (R56). -/
def lowByte (c : Half) : Byte := c.extractLsb' 0 8

/-- `checksum[15:8]` (R56). -/
def highByte (c : Half) : Byte := c.extractLsb' 8 8

/-- `pack_bitfield` (40_codec.md R103, layout 30_encoding.md R72). -/
def packBits (sender reset ack : Bit) (msgId : MsgId) : Byte :=
  sender.setWidth 8 ||| (reset.setWidth 8 <<< 1) ||| (ack.setWidth 8 <<< 2) ||| (msgId.setWidth 8 <<< 3)

/-- `unpack_bitfield` (40_codec.md R104). -/
def unpackBits (b : Byte) : Bit × Bit × Bit × MsgId :=
  (b.extractLsb' 0 1, b.extractLsb' 1 1, b.extractLsb' 2 1, b.extractLsb' 3 5)

/-- The accumulation loop of `checksum` (R100): little-endian words, an odd trailing byte with high byte zero. -/
def sumWords (acc : Acc) : List Byte → Acc
  | [] => acc
  | [b] => acc + b.setWidth 32
  | lo :: hi :: rest => sumWords (acc + (lo.setWidth 32 ||| (hi.setWidth 32 <<< 8))) rest

/-- One pass of the fold loop (R100): `zext_32(acc[15:0]) + zext_32(acc[31:16])`. -/
def foldOnce (acc : Acc) : Acc := (acc.extractLsb' 0 16).setWidth 32 + (acc.extractLsb' 16 16).setWidth 32

/-- The `while acc[31:16] ≠ 0` loop (R100). Two passes end it for every 32-bit value (R101). -/
def foldCarries : Nat → Acc → Acc
  | 0, acc => acc
  | fuel + 1, acc => if acc.extractLsb' 16 16 = 0 then acc else foldCarries fuel (foldOnce acc)

/-- `f` with the checksum field zeroed (R100). -/
def zeroChecksum (f : List Byte) : List Byte := (f.set 2 0).set 3 0

/-- `checksum` (40_codec.md R100). Log entry 9 for operands shorter than a header. -/
def frameChecksum (f : List Byte) : Half :=
  (foldCarries 2 (sumWords 0 (zeroChecksum f))).extractLsb' 0 16

/-- The checksum field of a frame (30_encoding.md R73). -/
def storedChecksum (f : List Byte) : Half := le16 (byteAt f 2) (byteAt f 3)

/-- `checksum_ok` (40_codec.md R102). -/
def checksumMatches (f : List Byte) : Bool := decide (frameChecksum f = storedChecksum f)

/-- `decode` (40_codec.md R106): checks neither the length bound nor the checksum. -/
def decodeFrame (s : List Byte) : Decoded :=
  if s.length < headerLen then .incomplete
  else
    let n := (byteAt s 1).toNat
    if s.length < headerLen + n then .incomplete
    else
      let (sd, rs, ak, id) := unpackBits (byteAt s 4)
      .frame { sender := sd, reset := rs, ack := ak, msgId := id, payload := (s.drop headerLen).take n } (headerLen + n)

/-- The kind of a valid frame, first matching row (30_encoding.md R75). -/
def frameKind (p : Params) (m : Message) : Head :=
  if m.sender = p.localId then .echo m
  else if m.ack = 1 then .ack m
  else if m.reset = 1 then .reset m
  else .data m

/-- What stands at the head of a byte sequence: the decisions of one pass of the receive scan (41_receive.md R130),
in its order. `none` only for the empty sequence. -/
def classify (p : Params) (s : List Byte) : Option Head :=
  match s with
  | [] => none
  | b :: _ =>
    if b ≠ p.magic then some .notMagic
    else if s.length < headerLen then some .incompleteHeader
    else
      let n := (byteAt s 1).toNat
      if p.rxMaxPayloadLen < n then some .badLen
      else if s.length < headerLen + n then some .incompleteFrame
      else
        let f := s.take (headerLen + n)
        if checksumMatches f then
          match decodeFrame f with
          | .incomplete => some .incompleteFrame
          | .frame m _ => some (frameKind p m)
        else some .badCsum

/-- Why the decoder gives no instruction. -/
inductive DecodeError where
  /-- There is no byte at the head. Every other byte sequence has a row (30_encoding.md R79). -/
  | noByte
deriving DecidableEq, Repr

/-- The decoder: the row of the opcode table that stands at the head of a byte sequence. -/
def decodeInstr (p : Params) (s : List Byte) : Except DecodeError Instr :=
  match classify p s with
  | none => .error .noByte
  | some h => .ok h.toInstr

/-! ### The encoder -/

/-- `encode` (40_codec.md R105). Log entry 9 for payloads longer than the 8-bit length field. -/
def encodeFrame (p : Params) (m : Message) : List Byte :=
  let f := [p.magic, BitVec.ofNat 8 m.payload.length, 0, 0, packBits m.sender m.reset m.ack m.msgId] ++ m.payload
  let c := frameChecksum f
  (f.set 2 (lowByte c)).set 3 (highByte c)

/-- The bytes of a row that has a byte form: the four frame kinds. A verdict is a set of byte sequences, not one
encoding, and the events and internal operations have none (30_encoding.md R82). -/
def encodeInstr (p : Params) : Instr → Option (List Byte)
  | .echoFrame m => some (encodeFrame p m)
  | .ackFrame m => some (encodeFrame p m)
  | .resetFrame m => some (encodeFrame p m)
  | .dataFrame m => some (encodeFrame p m)
  | .notMagic => none
  | .incompleteHeader => none
  | .badLen => none
  | .incompleteFrame => none
  | .badCsum => none
  | .rxByte _ => none
  | .txOpp _ _ => none
  | .timer _ => none
  | .send _ _ => none
  | .enable => none
  | .rxPop => none
  | .status => none
  | .checksum _ => none
  | .checksumOk _ => none
  | .packBitfield _ _ _ _ => none
  | .unpackBitfield _ => none
  | .encode _ => none
  | .decode _ => none
  | .findHeader => none
  | .makeAck _ => none
  | .makeReset => none
  | .rxScan => none
  | .linkReset => none
  | .sendReset => none
  | .arbDrain _ _ => none
  | .arbAcked _ _ => none
  | .arbStart _ _ => none
  | .arbRetryDue _ _ => none
  | .arbRetry _ _ => none
  | .arbExhaust _ _ => none
  | .arbWait _ _ => none

/-! ### Words of the opcode table -/

/-- The header around a bitfield byte: `MAGIC`, length 0, the checksum, the byte. -/
def headerAround (p : Params) (bitfield : Byte) : List Byte :=
  let (sd, rs, ak, id) := unpackBits bitfield
  encodeFrame p { sender := sd, reset := rs, ack := ak, msgId := id, payload := [] }

/-- The bytes of a word of the opcode table. DEDUCED, log entry 6: up to 8 bits the word is the bitfield byte
`frame[4]`, over which the table gives match and mask, and the header around it is completed with length 0 and its
checksum; a longer word is the frame's bytes, the first byte in bits 7..0, with zeros up to the length byte 1 names. -/
def tableBytes (p : Params) (nbits w : Nat) : List Byte :=
  if nbits = 0 then []
  else if nbits ≤ 8 then headerAround p (BitVec.ofNat 8 w)
  else
    (List.range (max ((nbits + 7) / 8) (headerLen + w / 256 % 256))).map fun k => BitVec.ofNat 8 (w / 256 ^ k)

/-- The instruction the decoder reads from a word of the opcode table, for the example instance of log entry 1. -/
def decodeTableWord (nbits w : Nat) : Option Instr :=
  match decodeInstr Params.exampleA (tableBytes Params.exampleA nbits w) with
  | .ok i => some i
  | .error _ => none

end Sys2Proof
end

