-- ==== Sys2Proof/Machine/Operands.lean ====
section
/-! DEFINITION. The operand forms: messages the block builds, time arithmetic, what is read off the link. -/

namespace Sys2Proof.Machine

/-- `make_ack(id)` (40_codec.md R110). -/
def ackMessage (p : Params) (id : MsgId) : Message :=
  { sender := p.localId, reset := 0, ack := 1, msgId := id, payload := [] }

/-- `make_reset()` (40_codec.md R111). -/
def resetMessage (p : Params) : Message :=
  { sender := p.localId, reset := 1, ack := 0, msgId := 0, payload := [] }

/-- The application message `SEND` builds (42_transmit.md R160). -/
def dataMessage (p : Params) (id : MsgId) (cmd : Byte) (data : List Byte) : Message :=
  { sender := p.localId, reset := 0, ack := 0, msgId := id, payload := cmd :: data }

/-- The bytes a frame with message `m` occupies (40_codec.md R106). -/
def frameLength (m : Message) : Nat := headerLen + m.payload.length

/-- Elapsed time, modulo 2^TS_BITS (42_transmit.md R165). -/
def elapsed (now last : Timestamp) : Nat := (now - last).toNat

/-- The next retry deadline `last_send_time + RETRY_INTERVAL_US`, wrapping (42_transmit.md R168, 00_scope.md R9). -/
def deadline (p : Params) (last : Timestamp) : Timestamp := last + BitVec.ofNat tsBits p.retryIntervalUs

/-- The arbiter's two states (10_state.md R26). -/
inductive TxState where
  | idle
  | awaitingAck
deriving DecidableEq, Repr

/-- `tx_state(L) := IDLE if L.pending = none else AWAITING_ACK` (10_state.md R26). -/
def Link.txState (l : Link) : TxState := if l.pending = none then .idle else .awaitingAck

/-- How the host splits a popped message for its callback (41_receive.md R142): command and data, and no call for an
empty payload. Host side, no block state. -/
def callbackArguments (m : Message) : Option (Byte × List Byte) :=
  match m.payload with
  | [] => none
  | command :: data => some (command, data)

end Sys2Proof.Machine
end

