-- ==== Sys2Proof/Machine/Ops.lean ====
section
/-! DEFINITION. The named operations over the rings and queues, the link reset (the block's one recovery, shared as
an exception entry would be), and the operations the receive and transmit rules share. -/

namespace Sys2Proof.Machine

/-! ### Rings and queues (20_memory.md R51 to R54) -/

/-- `RbPush`, all or nothing: `none` is `overflow` (20_memory.md R51). -/
def rbPush (cap : Nat) (q s : List Byte) : Option (List Byte) :=
  if q.length + s.length ≤ cap then some (q ++ s) else none

/-- `RbDrop(q, n)` (R53). -/
def rbDrop (q : List Byte) (n : Nat) : List Byte := q.drop n

/-- `RbPop(q)`: the head byte and the rest, `none` on the empty ring, where no rule pops (R52). -/
def rbPop (q : List Byte) : Option (Byte × List Byte) :=
  match q with
  | [] => none
  | b :: rest => some (b, rest)

/-- `QPush(q, m)`: `none` is `full` (R54). -/
def qPush (cap : Nat) (q : List Message) (m : Message) : Option (List Message) :=
  if q.length < cap then some (q ++ [m]) else none

/-- `QPop(q)`: the oldest message and the rest, `none` on the empty queue (R54). -/
def qPop (q : List Message) : Option (Message × List Message) :=
  match q with
  | [] => none
  | m :: rest => some (m, rest)

/-- `QHead(q)`: the oldest message "without removal", `none` on the empty queue (R54). No rule calls it. -/
def qHead (q : List Message) : Option Message := q.head?

/-! ### Instantiation (20_memory.md R55, 10_state.md R38) -/

/-- Instantiates a link, or refuses parameters that break 20_memory.md R55. -/
def instantiate (p : Params) : Host.Outcome State Fault Refusal :=
  if p.wf then .next (State.powerOn p) else .refused .illFormedInstance

/-! ### Link reset (43_link_control.md R190, R191) -/

/-- `reset()` on the link record (43_link_control.md R190): `enabled` and the sticky flags stay. -/
def Link.cleared (l : Link) : Link :=
  { l with
    txQueue := []
    rxQueue := []
    txBytes := []
    rxBytes := []
    lastReceivedId := none
    peerAck := none
    pending := none
    nextMsgId := 0
    retryCount := 0
    lastSendTime := 0
    wakeDeadline := none }

/-- `reset()` (43_link_control.md R190). -/
def State.resetLink (s : State) : State := { s with link := s.link.cleared }

/-- Queues a message in `tx_queue` where it fits (20_memory.md R54). -/
def State.queueTx (m : Message) (s : State) : State :=
  match qPush s.params.txQueueCap s.link.txQueue m with
  | some q => s.setTxQueue q
  | none => s

/-- `send_reset()` (43_link_control.md R191). -/
def State.resetAndAnnounce (s : State) : State := s.resetLink.queueTx (resetMessage s.params)

/-! ### Receive side -/

/-- Removes the bytes of a consumed frame from `rx_bytes` (41_receive.md R139). -/
def State.consumeFrame (m : Message) (s : State) : State :=
  s.setRxBytes (rbDrop s.link.rxBytes (frameLength m))

/-- Discards exactly one byte at the head of `rx_bytes` (40_codec.md R108). -/
def State.discardByte (s : State) : State := s.setRxBytes (rbDrop s.link.rxBytes 1)

/-- Pushes the ack of a data frame into `tx_bytes`, or drops it whole and flags it (41_receive.md R138, D13). -/
def State.pushAck (id : MsgId) (s : State) : State :=
  match rbPush s.params.txBytesCap s.link.txBytes (encodeFrame s.params (ackMessage s.params id)) with
  | some q => s.setTxBytes q
  | none => s.flag .ackDropped

/-- Queues a message for delivery, or drops it and flags it (41_receive.md R138, D14). -/
def State.queueRx (m : Message) (s : State) : State :=
  match qPush s.params.rxQueueCap s.link.rxQueue m with
  | some q => s.setRxQueue q
  | none => s.flag .rxqDropped

/-- `rx_data(m)` (41_receive.md R138). -/
def State.acceptData (m : Message) (s : State) : State :=
  let acked := s.pushAck m.msgId
  if acked.link.lastReceivedId ≠ some m.msgId then
    ((acked.setLastReceivedId (some m.msgId)).addLabel (.novel m.msgId)).queueRx m
  else acked.addLabel (.dup m.msgId)

/-- `find_header()` (40_codec.md R107), a `DROP` label for each discarded byte. -/
def State.seekHeader (s : State) : State :=
  let isNoMagic := fun b => decide (b ≠ s.params.magic)
  (s.setRxBytes (s.link.rxBytes.dropWhile isNoMagic)).addLabels ((s.link.rxBytes.takeWhile isNoMagic).map fun _ => .drop)

/-- What the receive scan does with what stands at the head of `rx_bytes`: the verdicts of 30_encoding.md R79 and
steps 5 to 9 of the scan (41_receive.md R132 to R139). -/
def State.runHead (h : Head) (s : State) : State :=
  match h with
  | .notMagic => s.discardByte.addLabel .drop
  | .incompleteHeader => s.addLabel .wait
  | .badLen => s.discardByte.addLabel .badLen
  | .incompleteFrame => s.addLabel .wait
  | .badCsum => s.discardByte.addLabel .badCsum
  | .echo m => (s.addLabel .echo).consumeFrame m
  | .ack m => ((s.setPeerAck (some m.msgId)).addLabel (.ackRx m.msgId)).consumeFrame m
  | .reset _ => s.resetLink.addLabel .resetRx
  | .data m => (s.acceptData m).consumeFrame m

/-- The heads at which the scan stops (41_receive.md R130): it waits for bytes, or the link was reset. -/
def stopsScan : Head → Bool
  | .notMagic => false
  | .incompleteHeader => true
  | .badLen => false
  | .incompleteFrame => true
  | .badCsum => false
  | .echo _ => false
  | .ack _ => false
  | .reset _ => true
  | .data _ => false

/-- The receive scan with a bound on its passes (41_receive.md R130): each pass decodes the head of `rx_bytes`, runs
what it decodes, and goes on unless that stops the scan or nothing is left. `find_header` is the pass that discards a
byte, taken until the head is `MAGIC`. -/
def State.scanWithin : Nat → State → State
  | 0, s => s
  | fuel + 1, s =>
    match classify s.params s.link.rxBytes with
    | none => s
    | some h => if stopsScan h then s.runHead h else (s.runHead h).scanWithin fuel

/-- `rx_scan()` (41_receive.md R130): "a scan ends after at most `RbLen(rx_bytes) + 1` passes". -/
def State.scan (s : State) : State := s.scanWithin (s.link.rxBytes.length + 1)

/-- A received byte is pushed into `rx_bytes`, or lost and flagged (41_receive.md R131). -/
def State.bufferByte (b : Byte) (s : State) : State :=
  match rbPush s.params.rxBytesCap s.link.rxBytes [b] with
  | some q => s.setRxBytes q
  | none => s.flag .rxOverrun

/-- `RX_BYTE(b)` on an enabled link (41_receive.md R131): push or flag, then scan. DESIGN CHOICE, log entry 17: a byte
lost at a full `rx_bytes` has no label of its own, and the scan that follows has its labels (R202), although vector R-21
gives none. -/
def State.receiveByte (b : Byte) (s : State) : State := (s.bufferByte b).scan

/-! ### Transmit side -/

/-- Pushes the frame of a message into `tx_bytes` where it fits (42_transmit.md R164, R166). -/
def State.pushFrame (m : Message) (s : State) : State :=
  match rbPush s.params.txBytesCap s.link.txBytes (encodeFrame s.params m) with
  | some q => s.setTxBytes q
  | none => s

/-- The branches of the arbiter (42_transmit.md R161). -/
inductive Branch where
  | drain
  | acked
  | start
  | retry
  | exhaust
  | wait
deriving DecidableEq, Repr

/-- Whether the pending message is acknowledged (42_transmit.md R163). -/
def Link.isAcked (l : Link) : Bool :=
  match l.pending with
  | some m => decide (l.peerAck = some m.msgId)
  | none => false

/-- Whether a retry of the pending message is due (42_transmit.md R165). -/
def Link.isDue (p : Params) (now : Timestamp) (l : Link) : Bool :=
  l.pending.isSome && decide (p.retryIntervalUs ≤ elapsed now l.lastSendTime)

/-- The branch an opportunity takes, "first true branch only" (42_transmit.md R161); `none` while the link is not
enabled (43_link_control.md R194). -/
def selectBranch (p : Params) (now : Timestamp) (l : Link) : Option Branch :=
  if !l.enabled then none
  else if !l.txBytes.isEmpty then some .drain
  else if l.isAcked then some .acked
  else if l.pending.isNone && !l.txQueue.isEmpty then some .start
  else if l.isDue p now then (if l.retryCount < p.maxRetries then some .retry else some .exhaust)
  else some .wait

/-- Drain (42_transmit.md R162): one byte moves, and only when the UART is ready. -/
def State.drainByte (uartReady : Bool) (s : State) : State :=
  if uartReady then
    match rbPop s.link.txBytes with
    | some (b, rest) => ((s.setTxBytes rest).addLabel (.txb b)).setOut (.emitted (some b))
    | none => s.setOut (.emitted none)
  else s.setOut (.emitted none)

/-- Ack consumed (42_transmit.md R163): only `pending` is cleared. -/
def State.finishPending (s : State) : State :=
  match s.link.pending with
  | some m => ((s.setPending none).addLabel (.acked m.msgId)).setOut (.emitted none)
  | none => s.setOut (.emitted none)

/-- Start (42_transmit.md R164). -/
def State.startNext (now : Timestamp) (s : State) : State :=
  match qPop s.link.txQueue with
  | some (m, rest) =>
    ((((((s.setTxQueue rest).setPending (some m)).setRetryCount 0).setLastSendTime now).pushFrame m).addLabel
      (.start m.msgId)).setOut (.emitted none)
  | none => s.setOut (.emitted none)

/-- Retry (42_transmit.md R166). -/
def State.retryPending (now : Timestamp) (s : State) : State :=
  match s.link.pending with
  | some m =>
    ((((s.pushFrame m).setRetryCount (s.link.retryCount + 1)).setLastSendTime now).addLabel
      (.retry (s.link.retryCount + 1))).setOut (.emitted none)
  | none => s.setOut (.emitted none)

/-- Exhaustion (42_transmit.md R167): a link reset, and a reset frame unless the exhausted message was one. -/
def State.exhaustPending (s : State) : State :=
  match s.link.pending with
  | some m =>
    ((if m.reset = 0 then s.resetAndAnnounce else s.resetLink).addLabel (.exhaust m.reset)).setOut (.emitted none)
  | none => s.setOut (.emitted none)

/-- Wait (42_transmit.md R168). -/
def State.requestWake (s : State) : State :=
  ((s.setWakeDeadline
    (if s.link.pending.isSome then some (deadline s.params s.link.lastSendTime) else none)).addLabel .idleWait).setOut
    (.emitted none)

/-- What a selected branch does (42_transmit.md R162 to R168). -/
def State.runBranch (b : Branch) (now : Timestamp) (uartReady : Bool) (s : State) : State :=
  match b with
  | .drain => s.drainByte uartReady
  | .acked => s.finishPending
  | .start => s.startNext now
  | .retry => s.retryPending now
  | .exhaust => s.exhaustPending
  | .wait => s.requestWake

/-- A row of the opcode table that is a branch: it acts when the arbiter selects it and changes nothing otherwise
(DESIGN CHOICE, log entry 8). -/
def State.runIfSelected (b : Branch) (now : Timestamp) (uartReady : Bool) (s : State) : State :=
  if selectBranch s.params now s.link = some b then s.runBranch b now uartReady else s

/-- `arbiter(now, uart_ready)` (42_transmit.md R161). -/
def State.arbitrate (now : Timestamp) (uartReady : Bool) (s : State) : State :=
  match selectBranch s.params now s.link with
  | none => s.setOut (.emitted none)
  | some b => s.runBranch b now uartReady

end Sys2Proof.Machine
end

