-- ==== Sys2Proof/Machine/Arbiter.lean ====
section
/-! DEFINITION. The meanings of the arbiter's branches (42_transmit.md R162 to R168), each a row of the opcode table
with the operands of the arbiter call. A branch acts in the states in which the arbiter selects it (log entry 8). -/

namespace Sys2Proof.Machine

/-- ARB_DRAIN (42_transmit.md R162). -/
def execArbDrain (now : Timestamp) (uartReady : Bool) (s : State) : Host.Outcome State Fault Refusal :=
  .next (s.runIfSelected .drain now uartReady)

/-- ARB_ACKED (42_transmit.md R163). -/
def execArbAcked (now : Timestamp) (uartReady : Bool) (s : State) : Host.Outcome State Fault Refusal :=
  .next (s.runIfSelected .acked now uartReady)

/-- ARB_START (42_transmit.md R164). -/
def execArbStart (now : Timestamp) (uartReady : Bool) (s : State) : Host.Outcome State Fault Refusal :=
  .next (s.runIfSelected .start now uartReady)

/-- ARB_RETRY_DUE (42_transmit.md R165): the due branch, which is a retry or an exhaustion. -/
def execArbRetryDue (now : Timestamp) (uartReady : Bool) (s : State) : Host.Outcome State Fault Refusal :=
  if selectBranch s.params now s.link = some .retry then .next (s.runBranch .retry now uartReady)
  else .next (s.runIfSelected .exhaust now uartReady)

/-- ARB_RETRY (42_transmit.md R166). -/
def execArbRetry (now : Timestamp) (uartReady : Bool) (s : State) : Host.Outcome State Fault Refusal :=
  .next (s.runIfSelected .retry now uartReady)

/-- ARB_EXHAUST (42_transmit.md R167). -/
def execArbExhaust (now : Timestamp) (uartReady : Bool) (s : State) : Host.Outcome State Fault Refusal :=
  .next (s.runIfSelected .exhaust now uartReady)

/-- ARB_WAIT (42_transmit.md R168). -/
def execArbWait (now : Timestamp) (uartReady : Bool) (s : State) : Host.Outcome State Fault Refusal :=
  .next (s.runIfSelected .wait now uartReady)

end Sys2Proof.Machine
end

