-- ==== Sys2Proof/Machine/Codec.lean ====
section
/-! DEFINITION. The meanings of the codec operations of the opcode table (40_codec.md): all but `find_header` only
compute, so they drive the output port and change nothing else. -/

namespace Sys2Proof.Machine

/-- `checksum(f)` (40_codec.md R100). -/
def execChecksum (f : List Byte) (s : State) : Host.Outcome State Fault Refusal := .next (s.setOut (.half (frameChecksum f)))

/-- `checksum_ok(f)` (40_codec.md R102). -/
def execChecksumOk (f : List Byte) (s : State) : Host.Outcome State Fault Refusal :=
  .next (s.setOut (.truth (checksumMatches f)))

/-- `pack_bitfield(sender, reset, ack, msg_id)` (40_codec.md R103). -/
def execPackBitfield (sender reset ack : Bit) (msgId : MsgId) (s : State) : Host.Outcome State Fault Refusal :=
  .next (s.setOut (.byte (packBits sender reset ack msgId)))

/-- `unpack_bitfield(b)` (40_codec.md R104). -/
def execUnpackBitfield (b : Byte) (s : State) : Host.Outcome State Fault Refusal :=
  let (sd, rs, ak, id) := unpackBits b
  .next (s.setOut (.bits sd rs ak id))

/-- `encode(m)` (40_codec.md R105). -/
def execEncode (m : Message) (s : State) : Host.Outcome State Fault Refusal :=
  .next (s.setOut (.bytes (encodeFrame s.params m)))

/-- `decode(s)` (40_codec.md R106). -/
def execDecode (bytes : List Byte) (s : State) : Host.Outcome State Fault Refusal :=
  .next (s.setOut (.decoded (decodeFrame bytes)))

/-- `find_header()` (40_codec.md R107). -/
def execFindHeader (s : State) : Host.Outcome State Fault Refusal := .next s.seekHeader

/-- `make_ack(id)` (40_codec.md R110). -/
def execMakeAck (id : MsgId) (s : State) : Host.Outcome State Fault Refusal :=
  .next (s.setOut (.message (ackMessage s.params id)))

/-- `make_reset()` (40_codec.md R111). -/
def execMakeReset (s : State) : Host.Outcome State Fault Refusal := .next (s.setOut (.message (resetMessage s.params)))

end Sys2Proof.Machine
end

