-- ==== Sys2Proof/Machine/Events.lean ====
section
/-! DEFINITION. The meanings of the seven interface events (30_encoding.md R80). -/

namespace Sys2Proof.Machine

/-- `RX_BYTE(b)` (41_receive.md R131). -/
def execRxByte (b : Byte) (s : State) : Host.Outcome State Fault Refusal :=
  let s := s.setOut .none
  if s.link.enabled then .next (s.receiveByte b) else .next s

/-- `TX_OPP(now, uart_ready)` (42_transmit.md R161). -/
def execTxOpp (now : Timestamp) (uartReady : Bool) (s : State) : Host.Outcome State Fault Refusal :=
  .next (s.arbitrate now uartReady)

/-- `TIMER(now)`: the arbiter with `uart_ready = false`, and no output (42_transmit.md R161, 30_encoding.md R80). -/
def execTimer (now : Timestamp) (s : State) : Host.Outcome State Fault Refusal :=
  .next ((s.arbitrate now false).setOut .none)

/-- `SEND(cmd, data)` (42_transmit.md R160), its checks in the order of decision D20. -/
def execSend (cmd : Byte) (data : List Byte) (s : State) : Host.Outcome State Fault Refusal :=
  if !s.link.enabled then .next (s.setOut (.result .errDisabled))
  else if s.params.maxAppData < data.length then .next (s.setOut (.result .errTooLong))
  else
    match qPush s.params.txQueueCap s.link.txQueue (dataMessage s.params s.link.nextMsgId cmd data) with
    | none => .next (s.setOut (.result .errQueueFull))
    | some q => .next (((s.setTxQueue q).setNextMsgId (s.link.nextMsgId + 1)).setOut (.result .ok))

/-- `ENABLE` (43_link_control.md R193). -/
def execEnable (s : State) : Host.Outcome State Fault Refusal :=
  .next ((s.resetLink.clearFlags.setEnabled true).setOut .none)

/-- `RX_POP` (41_receive.md R141). -/
def execRxPop (s : State) : Host.Outcome State Fault Refusal :=
  match qPop s.link.rxQueue with
  | some (m, rest) => .next ((s.setRxQueue rest).setOut (.popped (some m)))
  | none => .next (s.setOut (.popped none))

/-- `STATUS` (10_state.md R34): every field of the link record, "with no side effect". -/
def execStatus (s : State) : Host.Outcome State Fault Refusal := .next (s.setOut (.status s.link))

end Sys2Proof.Machine
end

