-- ==== Sys2Proof/Machine/Frames.lean ====
section
/-! DEFINITION. The meanings of the four frame kinds (30_encoding.md R75, 41_receive.md R135 to R139): what the receive
scan does with a valid frame at the head of `rx_bytes`, its bytes' removal included. Log entry 7. -/

namespace Sys2Proof.Machine

/-- ECHO (41_receive.md R135): consumed "without further action". -/
def execEcho (m : Message) (s : State) : Host.Outcome State Fault Refusal := .next (s.runHead (.echo m))

/-- ACK (41_receive.md R136). -/
def execAck (m : Message) (s : State) : Host.Outcome State Fault Refusal := .next (s.runHead (.ack m))

/-- RESET (41_receive.md R137). -/
def execReset (m : Message) (s : State) : Host.Outcome State Fault Refusal := .next (s.runHead (.reset m))

/-- DATA (41_receive.md R138). -/
def execData (m : Message) (s : State) : Host.Outcome State Fault Refusal := .next (s.runHead (.data m))

end Sys2Proof.Machine
end

