-- ==== Sys2Proof/Machine/LinkOps.lean ====
section
/-! DEFINITION. The meanings of the internal operations that act on the link state: `rx_scan`, `reset`, `send_reset`. -/

namespace Sys2Proof.Machine

/-- `rx_scan()` (41_receive.md R130). -/
def execRxScan (s : State) : Host.Outcome State Fault Refusal := .next s.scan

/-- `reset()` (43_link_control.md R190). -/
def execLinkReset (s : State) : Host.Outcome State Fault Refusal := .next s.resetLink

/-- `send_reset()` (43_link_control.md R191). -/
def execSendReset (s : State) : Host.Outcome State Fault Refusal := .next s.resetAndAnnounce

end Sys2Proof.Machine
end

