-- ==== Sys2Proof/Machine/Verdicts.lean ====
section
/-! DEFINITION. The meanings of the five verdicts on the head of `rx_bytes` (30_encoding.md R79). Log entry 7. -/

namespace Sys2Proof.Machine

/-- NOT_MAGIC (41_receive.md R132): "byte discarded". -/
def execNotMagic (s : State) : Host.Outcome State Fault Refusal := .next (s.runHead .notMagic)

/-- INCOMPLETE_HEADER (41_receive.md R132): "stop (wait for more bytes)". -/
def execIncompleteHeader (s : State) : Host.Outcome State Fault Refusal := .next (s.runHead .incompleteHeader)

/-- BADLEN (41_receive.md R133): "discard 1 byte". -/
def execBadLen (s : State) : Host.Outcome State Fault Refusal := .next (s.runHead .badLen)

/-- INCOMPLETE_FRAME (41_receive.md R134): "stop ... do not discard". -/
def execIncompleteFrame (s : State) : Host.Outcome State Fault Refusal := .next (s.runHead .incompleteFrame)

/-- BADCSUM (41_receive.md R134): "discard 1 byte". -/
def execBadCsum (s : State) : Host.Outcome State Fault Refusal := .next (s.runHead .badCsum)

end Sys2Proof.Machine
end

