-- ==== Sys2Proof/Machine/Dispatch.lean ====
section
/-! DEFINITION. One arm per row of spec/opcode_table.json. -/

namespace Sys2Proof.Machine

def exec (i : Instr) (s : State) : Host.Outcome State Fault Refusal :=
  match i with
  -- frame kinds
  | .echoFrame m => Sys2Proof.Machine.execEcho m s
  | .ackFrame m => Sys2Proof.Machine.execAck m s
  | .resetFrame m => Sys2Proof.Machine.execReset m s
  | .dataFrame m => Sys2Proof.Machine.execData m s
  -- verdicts
  | .notMagic => Sys2Proof.Machine.execNotMagic s
  | .incompleteHeader => Sys2Proof.Machine.execIncompleteHeader s
  | .badLen => Sys2Proof.Machine.execBadLen s
  | .incompleteFrame => Sys2Proof.Machine.execIncompleteFrame s
  | .badCsum => Sys2Proof.Machine.execBadCsum s
  -- events
  | .rxByte b => Sys2Proof.Machine.execRxByte b s
  | .txOpp now uartReady => Sys2Proof.Machine.execTxOpp now uartReady s
  | .timer now => Sys2Proof.Machine.execTimer now s
  | .send cmd data => Sys2Proof.Machine.execSend cmd data s
  | .enable => Sys2Proof.Machine.execEnable s
  | .rxPop => Sys2Proof.Machine.execRxPop s
  | .status => Sys2Proof.Machine.execStatus s
  -- codec
  | .checksum f => Sys2Proof.Machine.execChecksum f s
  | .checksumOk f => Sys2Proof.Machine.execChecksumOk f s
  | .packBitfield sender reset ack msgId => Sys2Proof.Machine.execPackBitfield sender reset ack msgId s
  | .unpackBitfield b => Sys2Proof.Machine.execUnpackBitfield b s
  | .encode m => Sys2Proof.Machine.execEncode m s
  | .decode bytes => Sys2Proof.Machine.execDecode bytes s
  | .findHeader => Sys2Proof.Machine.execFindHeader s
  | .makeAck id => Sys2Proof.Machine.execMakeAck id s
  | .makeReset => Sys2Proof.Machine.execMakeReset s
  -- operations on the link state
  | .rxScan => Sys2Proof.Machine.execRxScan s
  | .linkReset => Sys2Proof.Machine.execLinkReset s
  | .sendReset => Sys2Proof.Machine.execSendReset s
  -- branches of the arbiter
  | .arbDrain now uartReady => Sys2Proof.Machine.execArbDrain now uartReady s
  | .arbAcked now uartReady => Sys2Proof.Machine.execArbAcked now uartReady s
  | .arbStart now uartReady => Sys2Proof.Machine.execArbStart now uartReady s
  | .arbRetryDue now uartReady => Sys2Proof.Machine.execArbRetryDue now uartReady s
  | .arbRetry now uartReady => Sys2Proof.Machine.execArbRetry now uartReady s
  | .arbExhaust now uartReady => Sys2Proof.Machine.execArbExhaust now uartReady s
  | .arbWait now uartReady => Sys2Proof.Machine.execArbWait now uartReady s

end Sys2Proof.Machine
end

