-- ==== Sys2Proof/Machine/Fetch.lean ====
section
/-! DEFINITION. What a step reads: the environment's next event, and the placing of a frame so that the next step
decodes and runs it. -/

namespace Sys2Proof.Machine

/-- The next event of the environment's schedule and the rest (20_memory.md R61). -/
def State.nextEvent (s : State) : Option (Event × List Event) :=
  match s.events with
  | [] => none
  | e :: rest => some (e, rest)

/-- The state in which an event begins: taken off the schedule, the output port and the labels cleared. -/
def State.beginEvent (s : State) (rest : List Event) : State := ((s.setEvents rest).setOut .none).clearLabels

/-- Bytes placed so that the next step receives the last of them and the receive scan decodes the frame they form: the
link enabled, all but the last byte in `rx_bytes`, the last one as the next `RX_BYTE` event (log entry 5). -/
def State.placeFrame (s : State) (bytes : List Byte) : State :=
  match bytes.getLast? with
  | none => s
  | some b => ((s.setEnabled true).setRxBytes bytes.dropLast).setEvents (.rxByte b :: s.events)

/-- The byte an event put on the UART transmitter, if any (30_encoding.md R80). -/
def State.emittedByte (s : State) : Option Byte :=
  match s.out with
  | .emitted b => b
  | _ => none

end Sys2Proof.Machine
end

