-- ==== Sys2Proof/Machine/Step.lean ====
section
/-! DEFINITION. One step: one atomic event (20_memory.md R60). -/

namespace Sys2Proof.Machine

/-- One step takes the next event of the schedule and runs it. With no event the link "holds its state unchanged"
(60_exceptions.md R217). -/
def step (s : State) : Host.Outcome State Fault Refusal :=
  match s.nextEvent with
  | none => .next s
  | some (e, rest) => exec e.toInstr (s.beginEvent rest)

/-- `s` with a word of the opcode table placed where the next step receives, decodes and runs it (log entry 5). -/
def State.withFetchWord (s : State) (nbits w : Nat) : State := s.placeFrame (tableBytes s.params nbits w)

end Sys2Proof.Machine
end

