-- ==== Sys2Proof/Machine/System.lean ====
section
/-! DEFINITION. The two-party system of 60_exceptions.md R214 and R215: two links that share no state (00_scope.md R7)
and a wire, over the one `step`. Log entry 14. -/

namespace Sys2Proof.Machine

/-- The two ends of a wire (R214). -/
inductive Party where
  | a
  | b
deriving DecidableEq, Repr

/-- The other end. -/
def Party.other : Party → Party
  | .a => .b
  | .b => .a

/-- A closed system: links A and B, and the bytes on the wire towards each, oldest first. -/
structure System where
  a : State
  b : State
  /-- `WIRE_ECHO` (decision D35): an emitted byte is also offered to its emitter. -/
  wireEcho : Bool
  toA : List Byte
  toB : List Byte
deriving DecidableEq, Repr

/-- What can happen next: an event of one link, or one of the wire's behaviours (R214, decision D34). -/
inductive SysEvent where
  /-- An event of 30_encoding.md R80 at one link. -/
  | act (who : Party) (e : Event)
  /-- The wire delivers its oldest byte towards `dest`. -/
  | deliver (dest : Party)
  /-- The wire drops that byte. -/
  | dropByte (dest : Party)
  /-- The wire changes that byte to `b` and delivers it. -/
  | changeByte (dest : Party) (b : Byte)
  /-- The wire delivers a byte nobody sent. -/
  | insertByte (dest : Party) (b : Byte)
deriving DecidableEq, Repr

/-- The link at one end. -/
def System.link (y : System) : Party → State
  | .a => y.a
  | .b => y.b

/-- Replaces the link at one end. -/
def System.setLink (y : System) (who : Party) (s : State) : System :=
  match who with
  | .a => { y with a := s }
  | .b => { y with b := s }

/-- The bytes on the wire towards one end. -/
def System.wire (y : System) : Party → List Byte
  | .a => y.toA
  | .b => y.toB

/-- Replaces the bytes on the wire towards one end. -/
def System.setWire (y : System) (dest : Party) (bytes : List Byte) : System :=
  match dest with
  | .a => { y with toA := bytes }
  | .b => { y with toB := bytes }

/-- Puts what `who` emitted on the wire: towards the other end and, with echo, back to `who` (R214). -/
def System.carry (who : Party) (emitted : Option Byte) (y : System) : System :=
  match emitted with
  | none => y
  | some b =>
    let y := y.setWire who.other (y.wire who.other ++ [b])
    if y.wireEcho then y.setWire who (y.wire who ++ [b]) else y

/-- One event at one end, its emitted byte carried. -/
def System.perform (who : Party) (e : Event) (y : System) : Host.Outcome System Fault Refusal :=
  match step ((y.link who).setEvents (e :: (y.link who).events)) with
  | .next s => .next ((y.setLink who s).carry who s.emittedByte)
  | .fault r => .fault r
  | .refused r => .refused r

/-- One step of the system. With no byte on the wire, its behaviours change nothing. -/
def System.step (e : SysEvent) (y : System) : Host.Outcome System Fault Refusal :=
  match e with
  | .act who e => y.perform who e
  | .deliver dest =>
    match rbPop (y.wire dest) with
    | none => .next y
    | some (b, rest) => (y.setWire dest rest).perform dest (.rxByte b)
  | .dropByte dest => .next (y.setWire dest (rbDrop (y.wire dest) 1))
  | .changeByte dest c =>
    match rbPop (y.wire dest) with
    | none => .next y
    | some (_, rest) => (y.setWire dest rest).perform dest (.rxByte c)
  | .insertByte dest b => y.perform dest (.rxByte b)

/-- Instantiates a system, or refuses it (20_memory.md R55, 60_exceptions.md R215, 93_implementation_defined.md X3). -/
def System.instantiate (pa pb : Params) (wireEcho : Bool) : Host.Outcome System Fault Refusal :=
  if !(pa.wf && pb.wf) then .refused .illFormedInstance
  else if pa.localId = pb.localId then .refused .equalIdentities
  else .next { a := State.powerOn pa, b := State.powerOn pb, wireEcho := wireEcho, toA := [], toB := [] }

end Sys2Proof.Machine
end

