-- ==== Sys2Proof/Safety.lean ====
section
/-! DEFINITION. The terms claims use: the invariants of 10_state.md R36, quiescence (60_exceptions.md R218), runs of
events, the environment's fairness (R211), and two readings of the spec kept apart from the machine, to be proved equal
to it: the closed form of the checksum (40_codec.md R101) and the pseudocode of the receive scan (41_receive.md R130). -/

namespace Sys2Proof.Machine

/-! ### Invariants (10_state.md R36) -/

/-- R36 item 3: `rx_bytes` is empty, or starts with `MAGIC` and holds an incomplete header or frame. -/
def waitsForBytes (p : Params) (rx : List Byte) : Bool :=
  decide (rx = []) ||
  (decide (rx.head? = some p.magic) &&
    (decide (rx.length < headerLen) ||
      (decide ((byteAt rx 1).toNat ≤ p.rxMaxPayloadLen) && decide (rx.length < headerLen + (byteAt rx 1).toNat))))

/-- Ids that go up by one modulo 32, the last followed by `next` (R36 item 5). -/
def consecutiveUpTo (next : MsgId) : List MsgId → Bool
  | [] => true
  | [i] => decide (i + 1 = next)
  | i :: j :: rest => decide (i + 1 = j) && consecutiveUpTo next (j :: rest)

/-- The application messages of a queue: those that are no reset frame. -/
def applicationMessages (q : List Message) : List Message := q.filter fun m => decide (m.reset = 0)

/-- What holds after every event (10_state.md R36), with the capacities of 20_memory.md R50 and the state before the
first `ENABLE` (43_link_control.md R194). -/
structure Inv (s : State) : Prop where
  params_wf : s.params.wf = true
  /-- R36 item 1. -/
  retry_bound : ∀ m, s.link.pending = some m → s.link.retryCount ≤ s.params.maxRetries
  /-- R36 item 3. -/
  rx_waits : waitsForBytes s.params s.link.rxBytes = true
  /-- R36 item 4, first half. -/
  payloads_wf : ∀ m ∈ s.link.txQueue ++ s.link.rxQueue ++ s.link.pending.toList, m.wf = true
  /-- R36 item 4, second half. -/
  sent_nonempty : ∀ m ∈ applicationMessages (s.link.txQueue ++ s.link.pending.toList), 1 ≤ m.payload.length
  /-- R36 item 5. -/
  ids_consecutive : consecutiveUpTo s.link.nextMsgId ((applicationMessages s.link.txQueue).map Message.msgId) = true
  tx_bytes_fit : s.link.txBytes.length ≤ s.params.txBytesCap
  rx_bytes_fit : s.link.rxBytes.length ≤ s.params.rxBytesCap
  tx_queue_fits : s.link.txQueue.length ≤ s.params.txQueueCap
  rx_queue_fits : s.link.rxQueue.length ≤ s.params.rxQueueCap
  /-- R194: nothing has happened before the first `ENABLE`. -/
  before_enable : s.link.enabled = false → s.link = Link.powerOn

/-- The values after a link reset (10_state.md R37), whatever the link was. -/
structure ResetValues (l : Link) : Prop where
  next_msg_id : l.nextMsgId = 0
  last_received_id : l.lastReceivedId = none
  pending : l.pending = none
  peer_ack : l.peerAck = none
  tx_queue : l.txQueue = []
  rx_queue : l.rxQueue = []
  tx_bytes : l.txBytes = []
  rx_bytes : l.rxBytes = []
  retry_count : l.retryCount = 0
  last_send_time : l.lastSendTime = 0
  wake_deadline : l.wakeDeadline = none

/-! ### Runs -/

/-- The state after one event, taken by `step` (which never stops: 60_exceptions.md R205). -/
def State.after (e : Event) (s : State) : State :=
  match step (s.setEvents [e]) with
  | .next t => t
  | .fault _ => s
  | .refused _ => s

/-- A sequence of events, with the bytes put on the UART transmitter. -/
def State.runEvents : List Event → State → State × List Byte
  | [], s => (s, [])
  | e :: es, s => (((s.after e).runEvents es).1, (s.after e).emittedByte.toList ++ ((s.after e).runEvents es).2)

/-- A run of `RX_BYTE` events (30_encoding.md R82). -/
def State.receiveAll (bytes : List Byte) (s : State) : State := (s.runEvents (bytes.map Event.rxByte)).1

/-- One retry round with prompt opportunities (42_transmit.md R171): a timer fire at `t`, then `n` opportunities at `t`
with the UART ready. -/
def retryRound (t : Timestamp) (n : Nat) : List Event := .timer t :: List.replicate n (.txOpp t true)

/-- `rounds` retry rounds for a frame of `n` bytes, one every `RETRY_INTERVAL_US` after `t` (42_transmit.md R171). -/
def retryRounds (p : Params) (n : Nat) : Nat → Timestamp → List Event
  | 0, _ => []
  | rounds + 1, t => retryRound (deadline p t) n ++ retryRounds p n rounds (deadline p t)

/-! ### Quiescence (60_exceptions.md R218) -/

/-- A quiescent link (R218). -/
def Link.quiescent (l : Link) : Bool :=
  l.enabled && l.txBytes.isEmpty && l.pending.isNone && l.txQueue.isEmpty && l.rxQueue.isEmpty

/-- The end of a run of a two-link system (R218). -/
def System.finished (y : System) : Bool :=
  y.a.link.quiescent && y.b.link.quiescent && y.toA.isEmpty && y.toB.isEmpty

/-! ### The environment's obligations (60_exceptions.md R211, R213) -/

/-- The opportunities to transmit (00_scope.md R15). -/
def Event.isOpportunity : Event → Bool
  | .rxByte _ => false
  | .txOpp _ _ => true
  | .timer _ => true
  | .send _ _ => false
  | .enable => false
  | .rxPop => false
  | .status => false

/-- The time an event carries (60_exceptions.md R213). -/
def Event.time : Event → Option Timestamp
  | .rxByte _ => none
  | .txOpp now _ => some now
  | .timer now => some now
  | .send _ _ => none
  | .enable => none
  | .rxPop => none
  | .status => none

/-- An infinite run: event `n` takes state `n` to state `n + 1`. -/
def IsRun (run : Nat → State) (ev : Nat → Event) : Prop :=
  ∀ n, step ((run n).setEvents [ev n]) = .next (run (n + 1))

/-- Whether running a head pushes an ack into `tx_bytes` (41_receive.md R138): a data frame whose ack fits. -/
def pushesAck (h : Head) (s : State) : Bool :=
  match h with
  | .notMagic => false
  | .incompleteHeader => false
  | .badLen => false
  | .incompleteFrame => false
  | .badCsum => false
  | .echo _ => false
  | .ack _ => false
  | .reset _ => false
  | .data m =>
    (rbPush s.params.txBytesCap s.link.txBytes (encodeFrame s.params (ackMessage s.params m.msgId))).isSome

/-- Whether a pass of the receive scan pushes an ack, also one that a reset frame in the same scan clears again. -/
def scanPushesAck : Nat → State → Bool
  | 0, _ => false
  | fuel + 1, s =>
    match classify s.params s.link.rxBytes with
    | none => false
    | some h => pushesAck h s || (!stopsScan h && scanPushesAck fuel (s.runHead h))

/-- Whether an event pushes an ack: only `RX_BYTE` can, through its scan (41_receive.md R131, R138). -/
def Event.pushesAck (s : State) : Event → Bool
  | .rxByte b => s.link.enabled && scanPushesAck ((s.bufferByte b).link.rxBytes.length + 1) (s.bufferByte b)
  | .txOpp _ _ => false
  | .timer _ => false
  | .send _ _ => false
  | .enable => false
  | .rxPop => false
  | .status => false

/-- Events after which R211 item 2 asks for a further opportunity: an accepted `SEND`, a pushed ack, a received ack
frame, an opportunity that changed the link. -/
def CallsForOpportunity (s t : State) (e : Event) : Prop :=
  t.out = .result .ok ∨ Event.pushesAck s e = true ∨
  (∃ id, Label.ackRx id ∈ t.labels) ∨ (Event.isOpportunity e = true ∧ s.link ≠ t.link)

/-- The four fairness obligations (R211). -/
structure Fair (run : Nat → State) (ev : Nat → Event) : Prop where
  drains : ∀ n, (run n).link.txBytes ≠ [] → ∃ k, n ≤ k ∧ ∃ now, ev k = .txOpp now true
  opportunity : ∀ n, CallsForOpportunity (run n) (run (n + 1)) (ev n) → ∃ k, n < k ∧ Event.isOpportunity (ev k) = true
  wakes : ∀ n d, (run n).link.wakeDeadline = some d → ∃ k, n ≤ k ∧ ∃ now, d ≤ now ∧ ev k = .timer now
  delivers : ∀ n, (run n).link.rxQueue ≠ [] → ∃ k, n ≤ k ∧ ev k = .rxPop

/-- "The host must pass non-decreasing values across the events of one link" (R213). -/
def NonDecreasingTime (ev : Nat → Event) : Prop :=
  ∀ j k t u, j ≤ k → Event.time (ev j) = some t → Event.time (ev k) = some u → t ≤ u

/-! ### The checksum's closed form (40_codec.md R101) -/

/-- `Σ words`: word `k` is bytes `2k` (low) and `2k + 1` (high, zero after the end), as integers. -/
def wordTotal (g : List Byte) : Nat :=
  ((List.range ((g.length + 1) / 2)).map fun k => (byteAt g (2 * k)).toNat + 256 * (byteAt g (2 * k + 1)).toNat).sum

/-- The closed form of the folded sum (R101). -/
def foldedTotal (total : Nat) : Nat := if total = 0 then 0 else 1 + (total - 1) % 0xFFFF

/-! ### The pseudocode of the receive scan (41_receive.md R130) -/

/-- `rx_scan()` written line by line as R130 has it, with a bound on its passes. -/
def scanPseudocode : Nat → State → State
  | 0, s => s
  | fuel + 1, s0 =>
    let s := s0.seekHeader
    let rx := s.link.rxBytes
    if rx.length < headerLen then (if rx = [] then s else s.addLabel .wait)
    else
      let n := (byteAt rx 1).toNat
      if n > s.params.rxMaxPayloadLen then scanPseudocode fuel ((s.setRxBytes (rx.drop 1)).addLabel .badLen)
      else if rx.length < headerLen + n then s.addLabel .wait
      else
        let f := rx.take (headerLen + n)
        if checksumMatches f = false then scanPseudocode fuel ((s.setRxBytes (rx.drop 1)).addLabel .badCsum)
        else
          match decodeFrame f with
          | .incomplete => s
          | .frame m k =>
            if m.sender = s.params.localId then scanPseudocode fuel ((s.addLabel .echo).setRxBytes (rx.drop k))
            else if m.ack = 1 then
              scanPseudocode fuel (((s.setPeerAck (some m.msgId)).addLabel (.ackRx m.msgId)).setRxBytes (rx.drop k))
            else if m.reset = 1 then s.resetLink.addLabel .resetRx
            else scanPseudocode fuel ((s.acceptData m).setRxBytes (rx.drop k))

end Sys2Proof.Machine
end

