-- ==== Sys2Proof/Certificates/Slice0/Obligations.lean ====
section
/-! DEFINITION. The statements for the provers, each formalising rules of spec/ as its docstring says. The block has no
addressable memory (20_memory.md R50), so a frame is said of the state record: an equation gives the whole next state,
and what it does not name is unchanged. -/

open Sys2Proof Sys2Proof.Machine

/-! ### Codec -/

/-- 40_codec.md R103, 30_encoding.md R72: the bitfield byte and the place of each field in it. -/
def Obligations.PackBitfieldPlacesEveryField : Prop :=
  ∀ (s : State) (sender reset ack : Bit) (id : MsgId), ∃ b : Byte,
    exec (.packBitfield sender reset ack id) s = .next { s with out := .byte b } ∧
    b = sender.setWidth 8 ||| (reset.setWidth 8 <<< 1) ||| (ack.setWidth 8 <<< 2) ||| (id.setWidth 8 <<< 3) ∧
    b.extractLsb' 0 1 = sender ∧ b.extractLsb' 1 1 = reset ∧ b.extractLsb' 2 1 = ack ∧ b.extractLsb' 3 5 = id

/-- 40_codec.md R104: the fields read off a byte, and both round trips with `pack_bitfield`. -/
def Obligations.UnpackBitfieldInvertsPack : Prop :=
  (∀ (s : State) (b : Byte),
    exec (.unpackBitfield b) s =
      .next { s with out := .bits (b.extractLsb' 0 1) (b.extractLsb' 1 1) (b.extractLsb' 2 1) (b.extractLsb' 3 5) }) ∧
  (∀ (sender reset ack : Bit) (id : MsgId), unpackBits (packBits sender reset ack id) = (sender, reset, ack, id)) ∧
  (∀ b : Byte, packBits (unpackBits b).1 (unpackBits b).2.1 (unpackBits b).2.2.1 (unpackBits b).2.2.2 = b)

/-- 40_codec.md R101: the bounds of the accumulator, the end of the fold loop, and the closed form. -/
def Obligations.AccumulatorBoundAndClosedForm : Prop :=
  ∀ f : List Byte, f.length ≤ 68 →
    wordTotal (zeroChecksum f) ≤ 0x21FFDE ∧
    (sumWords 0 (zeroChecksum f)).toNat = wordTotal (zeroChecksum f) ∧
    (foldOnce (sumWords 0 (zeroChecksum f))).toNat ≤ 0x10020 ∧
    (foldOnce (foldOnce (sumWords 0 (zeroChecksum f)))).toNat ≤ 0xFFFF ∧
    (wordTotal (zeroChecksum f) = 0 → frameChecksum f = 0) ∧
    (0 < wordTotal (zeroChecksum f) →
      (frameChecksum f).toNat = 1 + (wordTotal (zeroChecksum f) - 1) % 0xFFFF ∧
      1 ≤ (frameChecksum f).toNat ∧ (frameChecksum f).toNat ≤ 0xFFFF ∧
      (frameChecksum f).toNat % 0xFFFF = wordTotal (zeroChecksum f) % 0xFFFF)

/-- 40_codec.md R100 with R101: what `checksum` answers for a frame, and that it changes nothing else. -/
def Obligations.ChecksumAnswersFoldedWordSum : Prop :=
  ∀ (s : State) (f : List Byte), headerLen ≤ f.length → f.length ≤ 68 →
    exec (.checksum f) s =
      .next { s with out := .half (BitVec.ofNat 16 (foldedTotal (wordTotal ((f.set 2 0).set 3 0)))) }

/-- 40_codec.md R102: `checksum_ok` compares the recomputed checksum with the stored little-endian field. -/
def Obligations.ChecksumOkComparesStoredField : Prop :=
  ∀ (s : State) (f : List Byte), f.length = headerLen + (byteAt f 1).toNat →
    exec (.checksumOk f) s =
      .next { s with out := .truth (decide (frameChecksum f = (byteAt f 2).setWidth 16 ||| ((byteAt f 3).setWidth 16 <<< 8))) }

/-- 40_codec.md R105: the bytes of an encoded frame. -/
def Obligations.EncodeWritesHeaderThenPayload : Prop :=
  ∀ (s : State) (m : Message), m.payload.length ≤ maxPayloadLen → ∃ (f : List Byte) (c : Half),
    exec (.encode m) s = .next { s with out := .bytes f } ∧
    c = frameChecksum ([s.params.magic, BitVec.ofNat 8 m.payload.length, 0, 0, packBits m.sender m.reset m.ack m.msgId] ++ m.payload) ∧
    f = [s.params.magic, BitVec.ofNat 8 m.payload.length, c.extractLsb' 0 8, c.extractLsb' 8 8,
      packBits m.sender m.reset m.ack m.msgId] ++ m.payload ∧
    f.length = 5 + m.payload.length

/-- 40_codec.md R106: `decode` is incomplete or reads the fields, and is the inverse of `encode`, whatever follows. -/
def Obligations.DecodeReadsFieldsOrIsIncomplete : Prop :=
  ∀ (s : State) (bytes : List Byte), bytes.head? = some s.params.magic →
    (bytes.length < headerLen → exec (.decode bytes) s = .next { s with out := .decoded .incomplete }) ∧
    (headerLen ≤ bytes.length → bytes.length < headerLen + (byteAt bytes 1).toNat →
      exec (.decode bytes) s = .next { s with out := .decoded .incomplete }) ∧
    (headerLen + (byteAt bytes 1).toNat ≤ bytes.length →
      exec (.decode bytes) s = .next { s with out := .decoded (.frame
        { sender := (byteAt bytes 4).extractLsb' 0 1
          reset := (byteAt bytes 4).extractLsb' 1 1
          ack := (byteAt bytes 4).extractLsb' 2 1
          msgId := (byteAt bytes 4).extractLsb' 3 5
          payload := (bytes.drop headerLen).take (byteAt bytes 1).toNat } (headerLen + (byteAt bytes 1).toNat)) }) ∧
    (∀ (m : Message) (rest : List Byte), m.payload.length ≤ maxPayloadLen → bytes = encodeFrame s.params m ++ rest →
      exec (.decode bytes) s = .next { s with out := .decoded (.frame m (5 + m.payload.length)) })

/-- 40_codec.md R112: the codec laws: round trip, a valid checksum, the same checksum after the round trip, every change
of one byte from offset 2 on detected, and a change at offset 0 is no frame start. -/
def Obligations.CodecLawsAndSingleByteDetection : Prop :=
  ∀ (p : Params) (m : Message), m.payload.length ≤ maxPayloadLen →
    decodeFrame (encodeFrame p m) = .frame m (5 + m.payload.length) ∧
    checksumMatches (encodeFrame p m) = true ∧
    (∀ m' n, decodeFrame (encodeFrame p m) = .frame m' n →
      frameChecksum (encodeFrame p m') = frameChecksum (encodeFrame p m)) ∧
    (∀ (k : Nat) (b : Byte), 2 ≤ k → k < 5 + m.payload.length → b ≠ byteAt (encodeFrame p m) k →
      checksumMatches ((encodeFrame p m).set k b) = false) ∧
    (∀ (b : Byte) (rest : List Byte), b ≠ p.magic →
      decodeInstr p ((encodeFrame p m).set 0 b ++ rest) = .ok .notMagic)

/-- Decode and encode agree on the rows that have a byte form (30_encoding.md R75, 40_codec.md R105, R106): every
well-formed frame instruction, with every operand the encoding admits, is what the receiver decodes from its bytes,
whatever follows them. The other rows have no bytes (`encodeInstr` gives none). -/
def Obligations.FrameInstructionsDecodeFromTheirBytes : Prop :=
  ∀ (p : Params) (i : Instr) (bytes rest : List Byte),
    i.wf p = true → encodeInstr p i = some bytes → decodeInstr p (bytes ++ rest) = .ok i

/-- 30_encoding.md R75, R79: what stands at the head of any byte sequence, clause by clause of the two tables. -/
def Obligations.EveryHeadIsClassified : Prop :=
  ∀ (p : Params) (bytes : List Byte) (m : Message),
    m = { sender := (byteAt bytes 4).extractLsb' 0 1
          reset := (byteAt bytes 4).extractLsb' 1 1
          ack := (byteAt bytes 4).extractLsb' 2 1
          msgId := (byteAt bytes 4).extractLsb' 3 5
          payload := (bytes.drop headerLen).take (byteAt bytes 1).toNat } →
    if bytes = [] then decodeInstr p bytes = .error .noByte
    else if byteAt bytes 0 ≠ p.magic then decodeInstr p bytes = .ok .notMagic
    else if bytes.length < 5 then decodeInstr p bytes = .ok .incompleteHeader
    else if p.rxMaxPayloadLen < (byteAt bytes 1).toNat then decodeInstr p bytes = .ok .badLen
    else if bytes.length < 5 + (byteAt bytes 1).toNat then decodeInstr p bytes = .ok .incompleteFrame
    else if frameChecksum (bytes.take (5 + (byteAt bytes 1).toNat)) ≠ le16 (byteAt bytes 2) (byteAt bytes 3) then
      decodeInstr p bytes = .ok .badCsum
    else if m.sender = p.localId then decodeInstr p bytes = .ok (.echoFrame m)
    else if m.ack = 1 then decodeInstr p bytes = .ok (.ackFrame m)
    else if m.reset = 1 then decodeInstr p bytes = .ok (.resetFrame m)
    else decodeInstr p bytes = .ok (.dataFrame m)

/-- 41_receive.md R143, in the part that is about one decision: a decision that does not wait for bytes does not change
when further bytes follow. (R143 itself, over whole runs, is not stated: see NOTES.md on a reset frame in a batch.) -/
def Obligations.DecisionsStandUnderMoreBytes : Prop :=
  ∀ (p : Params) (bytes more : List Byte) (i : Instr),
    decodeInstr p bytes = .ok i → i ≠ .incompleteHeader → i ≠ .incompleteFrame →
    decodeInstr p (bytes ++ more) = .ok i

/-- 95_test_vectors.md L2.1, L2.2: words written out from the encoding decode to the instructions they stand for. -/
def Obligations.WrittenOutWordsDecode : Prop :=
  decodeInstr Params.exampleB [0xEC, 0x04, 0xFA, 0x10, 0x00, 0x05, 0x06, 0x07, 0x08] =
    .ok (.dataFrame { sender := 0, reset := 0, ack := 0, msgId := 0, payload := [5, 6, 7, 8] }) ∧
  decodeInstr Params.exampleB [0xEC, 0x00, 0xF1, 0x00, 0x05] =
    .ok (.echoFrame { sender := 1, reset := 0, ack := 1, msgId := 0, payload := [] }) ∧
  decodeInstr Params.exampleA [0xEC, 0x00, 0x3B, 0x01, 0x4F] =
    .ok (.ackFrame { sender := 1, reset := 1, ack := 1, msgId := 9, payload := [] }) ∧
  decodeInstr Params.exampleB [0xEC, 0x00, 0xEE, 0x00, 0x02] =
    .ok (.resetFrame { sender := 0, reset := 1, ack := 0, msgId := 0, payload := [] }) ∧
  decodeInstr Params.exampleB [0xEC, 0x40, 0x00, 0x00, 0x00] = .ok .badLen ∧
  decodeInstr Params.exampleB [0xEC, 0x00, 0x00, 0x00, 0x00] = .ok .badCsum

/-! ### Receive -/

/-- 40_codec.md R107: `find_header` discards exactly the bytes before the first `MAGIC`, or all of them; a `DROP`
label for each byte is the model's reading of R202 (log entries 4 and 15). -/
def Obligations.FindHeaderDiscardsUpToMagic : Prop :=
  ∀ s : State, ∃ (t : State) (dropped : List Byte),
    exec .findHeader s = .next t ∧
    s.link.rxBytes = dropped ++ t.link.rxBytes ∧ (∀ b ∈ dropped, b ≠ s.params.magic) ∧
    (t.link.rxBytes = [] ∨ t.link.rxBytes.head? = some s.params.magic) ∧
    t = { s with
      link := { s.link with rxBytes := t.link.rxBytes }
      labels := s.labels ++ dropped.map fun _ => .drop }

/-- 40_codec.md R108, 41_receive.md R132 to R134: the discarding verdicts remove exactly one byte at the head (labels:
log entries 4 and 15). That a verdict acts so in states where it does not stand at the head is the model's choice (log
entry 7). -/
def Obligations.DiscardingVerdictsDropOneByte : Prop :=
  ∀ s : State,
    exec .notMagic s = .next { s with link := { s.link with rxBytes := s.link.rxBytes.drop 1 }, labels := s.labels ++ [.drop] } ∧
    exec .badLen s = .next { s with link := { s.link with rxBytes := s.link.rxBytes.drop 1 }, labels := s.labels ++ [.badLen] } ∧
    exec .badCsum s = .next { s with link := { s.link with rxBytes := s.link.rxBytes.drop 1 }, labels := s.labels ++ [.badCsum] }

/-- 41_receive.md R132, R134: the waiting verdicts discard nothing (labels: log entries 4 and 15). That they do so in states
where they do not stand at the head is the model's choice (log entry 7). -/
def Obligations.WaitingVerdictsKeepEverything : Prop :=
  ∀ s : State,
    exec .incompleteHeader s = .next { s with labels := s.labels ++ [.wait] } ∧
    exec .incompleteFrame s = .next { s with labels := s.labels ++ [.wait] }

/-- 41_receive.md R135: a frame with the local sender bit is an echo whatever its other bits, and only its bytes go. -/
def Obligations.EchoIsOnlyConsumed : Prop :=
  ∀ (s : State) (m : Message) (rest : List Byte), m.receivable s.params = true → m.sender = s.params.localId →
    s.link.rxBytes = encodeFrame s.params m ++ rest →
    decodeInstr s.params s.link.rxBytes = .ok (.echoFrame m) ∧
    exec (.echoFrame m) s = .next { s with
      link := { s.link with rxBytes := rest }
      labels := s.labels ++ [.echo] }

/-- 41_receive.md R136: an ack frame, reset bit or not, records its id and nothing else. -/
def Obligations.AckFrameRecordsItsId : Prop :=
  ∀ (s : State) (m : Message) (rest : List Byte),
    m.receivable s.params = true → m.sender ≠ s.params.localId → m.ack = 1 →
    s.link.rxBytes = encodeFrame s.params m ++ rest →
    decodeInstr s.params s.link.rxBytes = .ok (.ackFrame m) ∧
    exec (.ackFrame m) s = .next { s with
      link := { s.link with peerAck := some m.msgId, rxBytes := rest }
      labels := s.labels ++ [.ackRx m.msgId] }

/-- 41_receive.md R137, 10_state.md R37: a reset frame resets the link, sends nothing back, and ends the scan. -/
def Obligations.ResetFrameResetsAndStops : Prop :=
  ∀ (s : State) (m : Message) (rest : List Byte),
    m.receivable s.params = true → m.sender ≠ s.params.localId → m.ack = 0 → m.reset = 1 →
    s.link.rxBytes = encodeFrame s.params m ++ rest →
    ∃ t, exec (.resetFrame m) s = .next t ∧ exec .rxScan s = .next t ∧ ResetValues t.link ∧
      t.link.enabled = s.link.enabled ∧ t.link.stRxOverrun = s.link.stRxOverrun ∧
      t.link.stAckDropped = s.link.stAckDropped ∧ t.link.stRxqDropped = s.link.stRxqDropped ∧
      t.params = s.params ∧ t.events = s.events ∧ t.out = s.out ∧ t.labels = s.labels ++ [.resetRx]

/-- 41_receive.md R138, R139: a data frame is acked where the ack fits; it is queued where it is novel and there is room;
each loss is flagged; its bytes are consumed. -/
def Obligations.DataFrameIsAckedAndQueued : Prop :=
  ∀ (s : State) (m : Message) (ack rest : List Byte),
    (Instr.dataFrame m).wf s.params = true → s.link.rxBytes = encodeFrame s.params m ++ rest →
    ack = encodeFrame s.params { sender := s.params.localId, reset := 0, ack := 1, msgId := m.msgId, payload := [] } →
    decodeInstr s.params s.link.rxBytes = .ok (.dataFrame m) ∧
    exec (.dataFrame m) s = .next { s with
      link := { s.link with
        txBytes :=
          if s.link.txBytes.length + ack.length ≤ s.params.txBytesCap then s.link.txBytes ++ ack else s.link.txBytes
        stAckDropped :=
          if s.link.txBytes.length + ack.length ≤ s.params.txBytesCap then s.link.stAckDropped else true
        lastReceivedId := some m.msgId
        rxQueue :=
          if s.link.lastReceivedId ≠ some m.msgId ∧ s.link.rxQueue.length < s.params.rxQueueCap then s.link.rxQueue ++ [m]
          else s.link.rxQueue
        stRxqDropped :=
          if s.link.lastReceivedId ≠ some m.msgId ∧ s.params.rxQueueCap ≤ s.link.rxQueue.length then true
          else s.link.stRxqDropped
        rxBytes := rest }
      labels := s.labels ++ [if s.link.lastReceivedId ≠ some m.msgId then .novel m.msgId else .dup m.msgId] }

/-- 41_receive.md R130, R139: the receive scan runs the instruction decoded at the head of `rx_bytes`, ends there on a
wait or a reset, and otherwise scans on from what that leaves. -/
def Obligations.ScanRunsTheDecodedInstruction : Prop :=
  ∀ (s : State) (i : Instr), decodeInstr s.params s.link.rxBytes = .ok i →
    ∃ t, exec i s = .next t ∧
      (i = .incompleteHeader ∨ i = .incompleteFrame ∨ (∃ m, i = .resetFrame m) → exec .rxScan s = .next t) ∧
      (i ≠ .incompleteHeader → i ≠ .incompleteFrame → (∀ m, i ≠ .resetFrame m) →
        ∃ u, exec .rxScan t = .next u ∧ exec .rxScan s = .next u)

/-- 41_receive.md R130: the scan is the pseudocode of R130, and the bound it names on the passes is enough. The labels are
the model's reading of R202 (log entries 4 and 15). -/
def Obligations.ScanIsThePseudocode : Prop :=
  ∀ (s : State) (fuel : Nat), s.link.rxBytes.length + 1 ≤ fuel →
    exec .rxScan s = .next (scanPseudocode fuel s)

/-- 10_state.md R36 item 3, from any state: the scan leaves `rx_bytes` waiting, a tail of what was there. -/
def Obligations.ScanLeavesOnlyAnIncompleteFrame : Prop :=
  ∀ s : State, ∃ t, exec .rxScan s = .next t ∧ waitsForBytes t.params t.link.rxBytes = true ∧
    t.link.rxBytes <:+ s.link.rxBytes

/-- 41_receive.md R131: a byte is ignored, pushed, or lost and flagged; then the scan runs. The states are equal with their
labels: that a byte lost at a full `rx_bytes` has the labels 60_exceptions.md R202 gives the scan that follows, although
vector R-21 gives none, is the model's choice (log entry 17). -/
def Obligations.RxBytePushesThenScans : Prop :=
  ∀ (s : State) (b : Byte),
    (s.link.enabled = false → exec (.rxByte b) s = .next { s with out := .none }) ∧
    (s.link.enabled = true → s.link.rxBytes.length < s.params.rxBytesCap → ∃ t,
      exec .rxScan { s with link := { s.link with rxBytes := s.link.rxBytes ++ [b] }, out := .none } = .next t ∧
      exec (.rxByte b) s = .next t) ∧
    (s.link.enabled = true → s.params.rxBytesCap ≤ s.link.rxBytes.length → ∃ t,
      exec .rxScan { s with link := { s.link with stRxOverrun := true }, out := .none } = .next t ∧
      exec (.rxByte b) s = .next t)

/-- 41_receive.md R130, R131, 30_encoding.md R75: the last byte of a valid frame makes the receiver run exactly the row
of the opcode table the frame is. -/
def Obligations.LastByteRunsTheFrame : Prop :=
  ∀ (s : State) (m : Message) (b : Byte),
    s.link.enabled = true → m.receivable s.params = true → 5 + m.payload.length ≤ s.params.rxBytesCap →
    s.link.rxBytes ++ [b] = encodeFrame s.params m →
    ∃ i, decodeInstr s.params (encodeFrame s.params m) = .ok i ∧
      exec (.rxByte b) s = exec i { s with link := { s.link with rxBytes := encodeFrame s.params m }, out := .none }

/-- 41_receive.md R145 under its condition (no `MAGIC` in the garbage): exactly the one data frame is received. -/
def Obligations.GarbageBeforeAFrameIsDiscarded : Prop :=
  ∀ (s : State) (m : Message) (garbage : List Byte),
    s.params.wf = true → s.link.enabled = true → s.link.rxBytes = [] → (∀ b ∈ garbage, b ≠ s.params.magic) →
    (Instr.dataFrame m).wf s.params = true →
    ∃ t, exec (.dataFrame m) { s with link := { s.link with rxBytes := encodeFrame s.params m } } = .next t ∧
      (s.receiveAll (garbage ++ encodeFrame s.params m)).link = t.link ∧ t.link.rxBytes = []

/-- 41_receive.md R144: the same data frame twice in a row is delivered once and acked twice. -/
def Obligations.DuplicateIsAckedButNotDelivered : Prop :=
  ∀ (s : State) (m : Message) (ack : List Byte),
    s.params.wf = true → s.link.enabled = true → s.link.rxBytes = [] → (Instr.dataFrame m).wf s.params = true →
    ack = encodeFrame s.params { sender := s.params.localId, reset := 0, ack := 1, msgId := m.msgId, payload := [] } →
    s.link.lastReceivedId ≠ some m.msgId → s.link.rxQueue.length < s.params.rxQueueCap →
    s.link.txBytes.length + 10 ≤ s.params.txBytesCap →
    (s.receiveAll (encodeFrame s.params m ++ encodeFrame s.params m)).link =
      { s.link with
        lastReceivedId := some m.msgId
        rxQueue := s.link.rxQueue ++ [m]
        txBytes := s.link.txBytes ++ ack ++ ack }

/-- 41_receive.md R141: `RX_POP` returns the oldest message, or `none` and changes nothing. -/
def Obligations.RxPopReturnsTheOldest : Prop :=
  ∀ (s : State),
    (∀ m rest, s.link.rxQueue = m :: rest →
      exec .rxPop s = .next { s with link := { s.link with rxQueue := rest }, out := .popped (some m) }) ∧
    (s.link.rxQueue = [] → exec .rxPop s = .next { s with out := .popped none })

/-- 10_state.md R22 (the column "written by"): a received byte resets the link, or leaves the transmit side as it was
but for acks appended to `tx_bytes`, and only appends to `rx_queue`. -/
def Obligations.RxByteFrame : Prop :=
  ∀ (s t : State) (b : Byte), exec (.rxByte b) s = .next t →
    t.params = s.params ∧ t.events = s.events ∧ t.link.enabled = s.link.enabled ∧ t.out = .none ∧
    (ResetValues t.link ∨
      (t.link.nextMsgId = s.link.nextMsgId ∧ t.link.pending = s.link.pending ∧ t.link.retryCount = s.link.retryCount ∧
       t.link.lastSendTime = s.link.lastSendTime ∧ t.link.txQueue = s.link.txQueue ∧
       t.link.wakeDeadline = s.link.wakeDeadline ∧ s.link.txBytes <+: t.link.txBytes ∧ s.link.rxQueue <+: t.link.rxQueue))

/-! ### Transmit -/

/-- 42_transmit.md R160, 60_exceptions.md R200, R206: the four results of `SEND`, in the order of its checks. -/
def Obligations.SendQueuesOrReportsAnError : Prop :=
  ∀ (s : State) (cmd : Byte) (data : List Byte),
    (s.link.enabled = false → exec (.send cmd data) s = .next { s with out := .result .errDisabled }) ∧
    (s.link.enabled = true → s.params.maxAppData < data.length →
      exec (.send cmd data) s = .next { s with out := .result .errTooLong }) ∧
    (s.link.enabled = true → data.length ≤ s.params.maxAppData → s.link.txQueue.length = s.params.txQueueCap →
      exec (.send cmd data) s = .next { s with out := .result .errQueueFull }) ∧
    (s.link.enabled = true → data.length ≤ s.params.maxAppData → s.link.txQueue.length < s.params.txQueueCap →
      exec (.send cmd data) s = .next { s with
        link := { s.link with
          txQueue := s.link.txQueue ++
            [{ sender := s.params.localId, reset := 0, ack := 0, msgId := s.link.nextMsgId, payload := cmd :: data }]
          nextMsgId := s.link.nextMsgId + 1 }
        out := .result .ok })

/-- 42_transmit.md R162: drain. One byte moves, and only when the UART is ready; a timer never emits. -/
def Obligations.DrainMovesOneByteWhenReady : Prop :=
  ∀ (s : State) (now : Timestamp) (b : Byte) (rest : List Byte),
    s.link.enabled = true → s.link.txBytes = b :: rest →
    (∀ i ∈ [Instr.txOpp now true, Instr.arbDrain now true],
      exec i s = .next { s with
        link := { s.link with txBytes := rest }
        out := .emitted (some b)
        labels := s.labels ++ [.txb b] }) ∧
    (∀ i ∈ [Instr.txOpp now false, Instr.arbDrain now false], exec i s = .next { s with out := .emitted none }) ∧
    exec (.timer now) s = .next { s with out := .none }

/-- 42_transmit.md R163: ack consumed. Only `pending` is cleared. -/
def Obligations.AckedClearsOnlyPending : Prop :=
  ∀ (s : State) (now : Timestamp) (uartReady : Bool) (m : Message),
    s.link.enabled = true → s.link.txBytes = [] → s.link.pending = some m → s.link.peerAck = some m.msgId →
    (∀ i ∈ [Instr.txOpp now uartReady, Instr.arbAcked now uartReady],
      exec i s = .next { s with
        link := { s.link with pending := none }
        out := .emitted none
        labels := s.labels ++ [.acked m.msgId] }) ∧
    exec (.timer now) s = .next { s with
      link := { s.link with pending := none }
      out := .none
      labels := s.labels ++ [.acked m.msgId] }

/-- 42_transmit.md R164: start. -/
def Obligations.StartSendsTheOldestMessage : Prop :=
  ∀ (s : State) (now : Timestamp) (uartReady : Bool) (m : Message) (rest : List Message),
    s.link.enabled = true → s.link.txBytes = [] → s.link.pending = none → s.link.txQueue = m :: rest →
    5 + m.payload.length ≤ s.params.txBytesCap →
    (∀ i ∈ [Instr.txOpp now uartReady, Instr.arbStart now uartReady],
      exec i s = .next { s with
        link := { s.link with
          pending := some m, txQueue := rest, retryCount := 0, lastSendTime := now, txBytes := encodeFrame s.params m }
        out := .emitted none
        labels := s.labels ++ [.start m.msgId] }) ∧
    exec (.timer now) s = .next { s with
      link := { s.link with
        pending := some m, txQueue := rest, retryCount := 0, lastSendTime := now, txBytes := encodeFrame s.params m }
      out := .none
      labels := s.labels ++ [.start m.msgId] }

/-- 42_transmit.md R165, R166: a due retry resends the pending frame. -/
def Obligations.RetryResendsThePendingFrame : Prop :=
  ∀ (s : State) (now : Timestamp) (uartReady : Bool) (m : Message),
    s.link.enabled = true → s.link.txBytes = [] → s.link.pending = some m → s.link.peerAck ≠ some m.msgId →
    s.params.retryIntervalUs ≤ (now - s.link.lastSendTime).toNat → s.link.retryCount < s.params.maxRetries →
    5 + m.payload.length ≤ s.params.txBytesCap →
    (∀ i ∈ [Instr.txOpp now uartReady, Instr.arbRetryDue now uartReady, Instr.arbRetry now uartReady],
      exec i s = .next { s with
        link := { s.link with
          retryCount := s.link.retryCount + 1, lastSendTime := now, txBytes := encodeFrame s.params m }
        out := .emitted none
        labels := s.labels ++ [.retry (s.link.retryCount + 1)] }) ∧
    exec (.timer now) s = .next { s with
      link := { s.link with
        retryCount := s.link.retryCount + 1, lastSendTime := now, txBytes := encodeFrame s.params m }
      out := .none
      labels := s.labels ++ [.retry (s.link.retryCount + 1)] }

/-- 42_transmit.md R167, 43_link_control.md R190: exhaustion resets the link and queues a reset frame unless the
exhausted message was one. -/
def Obligations.ExhaustionResetsAndAnnounces : Prop :=
  ∀ (s : State) (now : Timestamp) (uartReady : Bool) (m : Message) (l : Link),
    s.link.enabled = true → s.link.txBytes = [] → s.link.pending = some m → s.link.peerAck ≠ some m.msgId →
    s.params.retryIntervalUs ≤ (now - s.link.lastSendTime).toNat → s.params.maxRetries ≤ s.link.retryCount →
    1 ≤ s.params.txQueueCap →
    l = { s.link with
      nextMsgId := 0, lastReceivedId := none, pending := none, retryCount := 0, lastSendTime := 0, peerAck := none
      txQueue :=
        if m.reset = 0 then [{ sender := s.params.localId, reset := 1, ack := 0, msgId := 0, payload := [] }] else []
      rxQueue := [], txBytes := [], rxBytes := [], wakeDeadline := none } →
    (∀ i ∈ [Instr.txOpp now uartReady, Instr.arbRetryDue now uartReady, Instr.arbExhaust now uartReady],
      exec i s = .next { s with link := l, out := .emitted none, labels := s.labels ++ [.exhaust m.reset] }) ∧
    exec (.timer now) s = .next { s with link := l, out := .none, labels := s.labels ++ [.exhaust m.reset] }

/-- 42_transmit.md R168: wait. The wake-up is the next retry deadline, or none when idle. -/
def Obligations.WaitRequestsTheNextDeadline : Prop :=
  ∀ (s : State) (now : Timestamp) (uartReady : Bool),
    s.link.enabled = true → s.link.txBytes = [] →
    (s.link.pending = none → s.link.txQueue = [] →
      (∀ i ∈ [Instr.txOpp now uartReady, Instr.arbWait now uartReady],
        exec i s = .next { s with
          link := { s.link with wakeDeadline := none }, out := .emitted none, labels := s.labels ++ [.idleWait] }) ∧
      exec (.timer now) s = .next { s with
        link := { s.link with wakeDeadline := none }, out := .none, labels := s.labels ++ [.idleWait] }) ∧
    (∀ m, s.link.pending = some m → s.link.peerAck ≠ some m.msgId →
      (now - s.link.lastSendTime).toNat < s.params.retryIntervalUs →
      (∀ i ∈ [Instr.txOpp now uartReady, Instr.arbWait now uartReady],
        exec i s = .next { s with
          link := { s.link with wakeDeadline := some (s.link.lastSendTime + BitVec.ofNat 64 s.params.retryIntervalUs) }
          out := .emitted none
          labels := s.labels ++ [.idleWait] }) ∧
      exec (.timer now) s = .next { s with
        link := { s.link with wakeDeadline := some (s.link.lastSendTime + BitVec.ofNat 64 s.params.retryIntervalUs) }
        out := .none
        labels := s.labels ++ [.idleWait] })

/-- 42_transmit.md R161, R165, 60_exceptions.md R206: an opportunity on an enabled link is exactly one branch (`TIMER`
the branch with `uart_ready = false`, without output), and the due row is the retry or the exhaustion; that the rows not selected change nothing is the model's choice (log entry 8). -/
def Obligations.OneBranchActsPerOpportunity : Prop :=
  ∀ (s : State) (now : Timestamp) (uartReady : Bool),
    let rows := [Instr.arbDrain now uartReady, .arbAcked now uartReady, .arbStart now uartReady,
      .arbRetry now uartReady, .arbExhaust now uartReady, .arbWait now uartReady]
    (s.link.enabled = true →
      ∃ i ∈ rows, (∃ t, exec i s = .next t ∧ exec (.txOpp now uartReady) s = .next t ∧
          (uartReady = false → exec (.timer now) s = .next { t with out := .none })) ∧
        (∀ j ∈ rows, j ≠ i → exec j s = .next s) ∧
        exec (.arbRetryDue now uartReady) s =
          if i = .arbRetry now uartReady ∨ i = .arbExhaust now uartReady then exec i s else .next s) ∧
    (s.link.enabled = false →
      (∀ j ∈ rows, exec j s = .next s) ∧ exec (.arbRetryDue now uartReady) s = .next s)

/-- 10_state.md R22 (the column "written by"): an opportunity that is no exhaustion leaves the receive side, the ids and
the recorded ack alone; none changes `enabled` or a sticky flag. -/
def Obligations.OpportunityFrame : Prop :=
  ∀ (s t : State) (i : Instr) (now : Timestamp) (uartReady : Bool),
    i = .txOpp now uartReady ∨ i = .timer now → exec i s = .next t →
    t.params = s.params ∧ t.events = s.events ∧ t.link.enabled = s.link.enabled ∧
    t.link.stRxOverrun = s.link.stRxOverrun ∧ t.link.stAckDropped = s.link.stAckDropped ∧
    t.link.stRxqDropped = s.link.stRxqDropped ∧
    ((t.link.lastReceivedId = s.link.lastReceivedId ∧ t.link.peerAck = s.link.peerAck ∧
      t.link.rxQueue = s.link.rxQueue ∧ t.link.rxBytes = s.link.rxBytes ∧ t.link.nextMsgId = s.link.nextMsgId) ∨
     (∃ m, s.link.pending = some m ∧ s.params.maxRetries ≤ s.link.retryCount ∧
      s.params.retryIntervalUs ≤ (now - s.link.lastSendTime).toNat ∧
      ResetValues { t.link with txQueue := [] }))

/-- 42_transmit.md R169: at most one message is in flight. No instruction replaces a pending message by another, and no
message leaves `tx_queue` while one is pending, but for a link reset. -/
def Obligations.PendingIsNeverReplaced : Prop :=
  ∀ (s t : State) (i : Instr) (m : Message), s.link.pending = some m → exec i s = .next t →
    (t.link.pending = some m ∨ t.link.pending = none) ∧
    (s.link.txQueue <+: t.link.txQueue ∨ ResetValues { t.link with txQueue := [] })

/-- 42_transmit.md R171: with no ack and prompt opportunities, the pending frame is sent once more every interval, `n`
times for every `n` up to `MAX_RETRIES`; one interval after the last retry the link is reset and the reset frame queued
unless the message was one. -/
def Obligations.NoAckMeansMaxRetriesThenReset : Prop :=
  ∀ (s : State) (m : Message) (n : Nat) (r : State × List Byte),
    s.link.enabled = true → s.link.txBytes = [] → s.link.pending = some m → s.link.peerAck ≠ some m.msgId →
    s.link.retryCount = 0 → s.params.retryIntervalUs < 2 ^ 64 → 5 + m.payload.length ≤ s.params.txBytesCap →
    1 ≤ s.params.txQueueCap → n ≤ s.params.maxRetries →
    r = s.runEvents (retryRounds s.params (5 + m.payload.length) n s.link.lastSendTime) →
    r.1.link = { s.link with
      retryCount := n
      lastSendTime := s.link.lastSendTime + BitVec.ofNat 64 (n * s.params.retryIntervalUs) } ∧
    r.2 = (List.replicate n (encodeFrame s.params m)).flatten ∧
    (n = s.params.maxRetries →
      (r.1.after (.timer (deadline s.params r.1.link.lastSendTime))).link =
        { s.link.cleared with txQueue := if m.reset = 0 then [resetMessage s.params] else [] })

/-- 43_link_control.md R196: after a link reset a late timer finds nothing to retry; after `send_reset` an opportunity
starts the reset frame. -/
def Obligations.LateTimerAfterResetIsHarmless : Prop :=
  ∀ (s : State) (now : Timestamp), s.link.enabled = true → 1 ≤ s.params.txQueueCap → 5 ≤ s.params.txBytesCap →
    (∃ t u, exec .linkReset s = .next t ∧ exec (.timer now) t = .next u ∧ u.link = t.link) ∧
    (∃ t u, exec .sendReset s = .next t ∧ exec (.timer now) t = .next u ∧
      u.link.pending = some (resetMessage s.params) ∧ u.link.txBytes = encodeFrame s.params (resetMessage s.params) ∧
      u.link.retryCount = 0)

/-! ### Link control -/

/-- 43_link_control.md R190: `reset()`, every field. -/
def Obligations.LinkResetClearsAllInFlightState : Prop :=
  ∀ s : State, exec .linkReset s = .next { s with
    link := { s.link with
      txQueue := [], rxQueue := [], txBytes := [], rxBytes := [], lastReceivedId := none, peerAck := none
      pending := none, nextMsgId := 0, retryCount := 0, lastSendTime := 0, wakeDeadline := none } }

/-- 43_link_control.md R191: `send_reset()` is `reset()` and then one reset frame in `tx_queue`. -/
def Obligations.SendResetQueuesAResetFrame : Prop :=
  ∀ s : State, 1 ≤ s.params.txQueueCap → exec .sendReset s = .next { s with
    link := { s.link with
      txQueue := [{ sender := s.params.localId, reset := 1, ack := 0, msgId := 0, payload := [] }]
      rxQueue := [], txBytes := [], rxBytes := [], lastReceivedId := none, peerAck := none
      pending := none, nextMsgId := 0, retryCount := 0, lastSendTime := 0, wakeDeadline := none } }

/-- 43_link_control.md R193: `ENABLE`, from any state. -/
def Obligations.EnableResetsAndEnables : Prop :=
  ∀ s : State, exec .enable s = .next { s with
    link := { Link.powerOn with enabled := true }
    out := .none }

/-- 10_state.md R34: `STATUS` answers every field of the link record and changes none. -/
def Obligations.StatusHasNoSideEffect : Prop :=
  ∀ s : State, exec .status s = .next { s with out := .status s.link }

/-- 40_codec.md R110, R111, 30_encoding.md R77, R78: the control messages, and the bitfield bytes of their frames. -/
def Obligations.ControlMessagesAreBuilt : Prop :=
  ∀ (s : State) (id : MsgId),
    exec (.makeAck id) s =
      .next { s with out := .message { sender := s.params.localId, reset := 0, ack := 1, msgId := id, payload := [] } } ∧
    exec .makeReset s =
      .next { s with out := .message { sender := s.params.localId, reset := 1, ack := 0, msgId := 0, payload := [] } } ∧
    byteAt (encodeFrame s.params (ackMessage s.params id)) 4 =
      0x04 ||| s.params.localId.setWidth 8 ||| (id.setWidth 8 <<< 3) ∧
    byteAt (encodeFrame s.params (resetMessage s.params)) 4 = 0x02 ||| s.params.localId.setWidth 8

/-- 43_link_control.md R194: before the first `ENABLE` (the invariant says what the link then is), and that a link once
enabled stays enabled. -/
def Obligations.DisabledLinkIsInert : Prop :=
  (∀ s : State, Inv s → s.link.enabled = false →
    (∀ b, exec (.rxByte b) s = .next { s with out := .none }) ∧
    (∀ now uartReady, exec (.txOpp now uartReady) s = .next { s with out := .emitted none }) ∧
    (∀ now, exec (.timer now) s = .next { s with out := .none }) ∧
    (∀ cmd data, exec (.send cmd data) s = .next { s with out := .result .errDisabled }) ∧
    exec .rxPop s = .next { s with out := .popped none } ∧
    exec .status s = .next { s with out := .status s.link }) ∧
  (∀ s t : State, step s = .next t → s.link.enabled = true → t.link.enabled = true)

/-- 10_state.md R33: each sticky flag goes to 1 only, and only `ENABLE` clears it. -/
def Obligations.OnlyEnableClearsStickyFlags : Prop :=
  (∀ (s t : State) (i : Instr), i ≠ .enable → exec i s = .next t →
    (s.link.stRxOverrun = true → t.link.stRxOverrun = true) ∧
    (s.link.stAckDropped = true → t.link.stAckDropped = true) ∧
    (s.link.stRxqDropped = true → t.link.stRxqDropped = true)) ∧
  (∀ s t : State, exec .enable s = .next t →
    t.link.stRxOverrun = false ∧ t.link.stAckDropped = false ∧ t.link.stRxqDropped = false)

/-- 10_state.md R32: no instruction writes the parameters, and only `ENABLE` writes `enabled`. -/
def Obligations.ParametersAreNeverWritten : Prop :=
  ∀ (s t : State) (i : Instr), exec i s = .next t →
    t.params = s.params ∧ (i ≠ .enable → t.link.enabled = s.link.enabled)

/-! ### The machine -/

/-- 60_exceptions.md R205, 00_scope.md R12: every step and every event completes in every state, and so does every other
row. That those rows complete in states and on operands outside their place is the model's choice (log entries 7, 8 and
9). What the next state is stands in the statements about each instruction. -/
def Obligations.EveryInstructionCompletes : Prop :=
  (∀ (i : Instr) (s : State), ∃ t, exec i s = .next t) ∧ (∀ s : State, ∃ t, step s = .next t)

/-- 20_memory.md R60, R61, 60_exceptions.md R217: a step runs the next event of the schedule (log entry 3), the output
port and the labels cleared (log entry 4); with no event nothing changes. -/
def Obligations.StepRunsTheNextEvent : Prop :=
  ∀ s : State,
    (∀ e rest, s.events = e :: rest →
      e.toInstr.wf s.params = true ∧ step s = exec e.toInstr { s with events := rest, out := .none, labels := [] }) ∧
    (s.events = [] → step s = .next s)

/-- 10_state.md R36 and 43_link_control.md R194: the invariant is kept by every step, from every state that has it. -/
def Obligations.StepKeepsTheInvariant : Prop :=
  ∀ s t : State, Inv s → step s = .next t → Inv t

/-- 10_state.md R38: the power-on state of every well-formed instance has the invariant, the reset state among them
(its instance is the model's choice, log entry 1). -/
def Obligations.PowerOnHasTheInvariant : Prop :=
  (∀ p : Params, p.wf = true → Inv (State.powerOn p)) ∧ Inv State.reset

/-- 20_memory.md R55, 10_state.md R37, R38: an instantiation that breaks a capacity constraint is refused; one that meets
them gives the power-on state, for the source's lengths and for all tuned lengths that fit the length field and whose
longest `SEND` frame fits `tx_bytes`. That other tuned lengths are refused is the model's choice (log entry 10). -/
def Obligations.InstantiationRefusesSmallBuffers : Prop :=
  ∀ p : Params,
    (p.rxBytesCap < 5 + p.rxMaxPayloadLen ∨ p.txBytesCap < 5 + p.rxMaxPayloadLen ∨ p.txQueueCap < 1 ∨ p.rxQueueCap < 1 →
      instantiate p = .refused .illFormedInstance) ∧
    (63 < p.rxMaxPayloadLen ∨ 62 < p.maxAppData ∨ p.txBytesCap < 6 + p.maxAppData →
      instantiate p = .refused .illFormedInstance) ∧
    (5 + p.rxMaxPayloadLen ≤ p.rxBytesCap → 5 + p.rxMaxPayloadLen ≤ p.txBytesCap → 1 ≤ p.txQueueCap →
      1 ≤ p.rxQueueCap → p.rxMaxPayloadLen ≤ 63 → p.maxAppData ≤ 62 → 6 + p.maxAppData ≤ p.txBytesCap →
      ∃ t, instantiate p = .next t ∧ t.params = p ∧ ResetValues t.link ∧ t.link.enabled = false ∧
        t.link.stRxOverrun = false ∧ t.link.stAckDropped = false ∧ t.link.stRxqDropped = false)

/-- 60_exceptions.md R218: in a quiescent link no event but `RX_BYTE`, `SEND` and `ENABLE` changes anything except
`wake_deadline`. -/
def Obligations.QuiescentLinkStaysPut : Prop :=
  ∀ (s : State) (e : Event), s.link.quiescent = true →
    (∀ b, e ≠ .rxByte b) → (∀ cmd data, e ≠ .send cmd data) → e ≠ .enable →
    ∃ t, exec e.toInstr s = .next t ∧ t.link = { s.link with wakeDeadline := t.link.wakeDeadline }

/-- 60_exceptions.md R211 item 1: in a fair run, once no byte is received and no `ENABLE` comes, the `tx_bytes` of an
enabled link drains at some time. -/
def Obligations.FairUartDrainsTheRing : Prop :=
  ∀ (run : Nat → State) (ev : Nat → Event) (n : Nat), IsRun run ev → Fair run ev → (run n).link.enabled = true →
    (∀ k, n ≤ k → (∀ b, ev k ≠ .rxByte b) ∧ ev k ≠ .enable) →
    ∃ k, n ≤ k ∧ (run k).link.txBytes = []

/-! ### The two-party system -/

/-- 00_scope.md R7, 60_exceptions.md R214: an event at one end is a `step` of that link and leaves the other link alone; what it emits is appended to
the wire towards the other end and, with echo, to the wire back. That the wire keeps the order of bytes is the model's
reading (log entry 14). -/
def Obligations.EventAtOneEndLeavesTheOtherAlone : Prop :=
  ∀ (y : System) (who : Party) (e : Event), ∃ y', System.step (.act who e) y = .next y' ∧
    step ((y.link who).setEvents (e :: (y.link who).events)) = .next (y'.link who) ∧
    y'.link who.other = y.link who.other ∧ y'.wireEcho = y.wireEcho ∧
    y'.wire who.other = y.wire who.other ++ (y'.link who).emittedByte.toList ∧
    y'.wire who = y.wire who ++ (if y.wireEcho then (y'.link who).emittedByte.toList else [])

/-- 60_exceptions.md R214: the wire delivers, drops, changes or inserts a byte; nothing else of the system changes. That
the oldest byte is the one acted on, and that an empty wire has only the insertion, is the model's (log entry 14). -/
def Obligations.WireStepsActOnTheReceiverOnly : Prop :=
  ∀ (y : System) (dest : Party) (c : Byte),
    (∃ t, step ((y.link dest).setEvents (.rxByte c :: (y.link dest).events)) = .next t ∧
      System.step (.insertByte dest c) y = .next (y.setLink dest t)) ∧
    (∀ b rest, y.wire dest = b :: rest →
      (∃ t, step ((y.link dest).setEvents (.rxByte b :: (y.link dest).events)) = .next t ∧
        System.step (.deliver dest) y = .next ((y.setWire dest rest).setLink dest t)) ∧
      System.step (.dropByte dest) y = .next (y.setWire dest rest) ∧
      (∃ t, step ((y.link dest).setEvents (.rxByte c :: (y.link dest).events)) = .next t ∧
        System.step (.changeByte dest c) y = .next ((y.setWire dest rest).setLink dest t))) ∧
    (y.wire dest = [] →
      System.step (.deliver dest) y = .next y ∧ System.step (.dropByte dest) y = .next y ∧
      System.step (.changeByte dest c) y = .next y)

/-- 60_exceptions.md R215: with equal ids every frame of one end is an echo at the other, so nothing is delivered; the
model refuses such a system (93_implementation_defined.md X3). -/
def Obligations.EqualIdentitiesHearOnlyEchoes : Prop :=
  (∀ (pa pb : Params) (m : Message) (rest : List Byte),
    pa.magic = pb.magic → pa.localId = pb.localId → m.sender = pa.localId → m.receivable pb = true →
    decodeInstr pb (encodeFrame pa m ++ rest) = .ok (.echoFrame m)) ∧
  (∀ (pa pb : Params) (wireEcho : Bool), pa.wf = true → pb.wf = true → pa.localId = pb.localId →
    System.instantiate pa pb wireEcho = .refused .equalIdentities)

/-- The whole protocol once (42_transmit.md R160 to R164, 41_receive.md R136, R138): over a wire that loses nothing, a
message sent by A is queued once at B, acknowledged, and A is idle again. -/
def Obligations.OneMessageGoesRoundTheLink : Prop :=
  ∀ (a b : State) (cmd : Byte) (data : List Byte) (t u v : Timestamp) (m : Message) (a1 b2 : State × List Byte),
    a.params.wf = true → b.params.wf = true → a.params.magic = b.params.magic → a.params.localId ≠ b.params.localId →
    data.length ≤ a.params.maxAppData → 1 + data.length ≤ b.params.rxMaxPayloadLen →
    a.link.enabled = true → a.link.txBytes = [] → a.link.rxBytes = [] → a.link.pending = none → a.link.txQueue = [] →
    b.link.enabled = true → b.link.txBytes = [] → b.link.rxBytes = [] → b.link.rxQueue.length < b.params.rxQueueCap →
    b.link.lastReceivedId ≠ some a.link.nextMsgId →
    m = dataMessage a.params a.link.nextMsgId cmd data →
    a1 = a.runEvents (.send cmd data :: .txOpp t false :: List.replicate (6 + data.length) (.txOpp t true)) →
    b2 = (b.receiveAll a1.2).runEvents (List.replicate 5 (.txOpp u true)) →
    a1.2 = encodeFrame a.params m ∧ a1.1.link.pending = some m ∧
    b2.1.link.rxQueue = b.link.rxQueue ++ [m] ∧ b2.1.link.lastReceivedId = some a.link.nextMsgId ∧
    b2.2 = encodeFrame b.params (ackMessage b.params a.link.nextMsgId) ∧
    ((a1.1.receiveAll b2.2).after (.txOpp v true)).link = { a.link with
      nextMsgId := a.link.nextMsgId + 1, retryCount := 0, lastSendTime := t, peerAck := some a.link.nextMsgId }
end

