-- ==== Sys2Proof/Laws/Codec.lean ====
section
/-! SUPPORT. Small lemmas of the codec: lengths, the shape of an encoded frame, when a head is classified how. -/

namespace Sys2Proof

@[simp] theorem byteAt_zero (b : Byte) (s : List Byte) : byteAt (b :: s) 0 = b := rfl

@[simp] theorem byteAt_succ (b : Byte) (s : List Byte) (i : Nat) : byteAt (b :: s) (i + 1) = byteAt s i := rfl

theorem byteAt_append_left {s : List Byte} {i : Nat} (t : List Byte) (h : i < s.length) :
    byteAt (s ++ t) i = byteAt s i := by
  simp [byteAt, List.getElem?_append_left h]

theorem byteAt_take {s : List Byte} {i n : Nat} (h : i < n) : byteAt (s.take n) i = byteAt s i := by
  simp [byteAt, h]

@[simp] theorem zeroChecksum_length (f : List Byte) : (zeroChecksum f).length = f.length := by
  simp [zeroChecksum]

/-- The shape of an encoded frame (40_codec.md R105). -/
theorem encodeFrame_eq (p : Params) (m : Message) :
    encodeFrame p m =
      p.magic :: BitVec.ofNat 8 m.payload.length ::
        lowByte (frameChecksum
          (p.magic :: BitVec.ofNat 8 m.payload.length :: 0 :: 0 :: packBits m.sender m.reset m.ack m.msgId :: m.payload)) ::
        highByte (frameChecksum
          (p.magic :: BitVec.ofNat 8 m.payload.length :: 0 :: 0 :: packBits m.sender m.reset m.ack m.msgId :: m.payload)) ::
        packBits m.sender m.reset m.ack m.msgId :: m.payload := rfl

@[simp] theorem encodeFrame_length (p : Params) (m : Message) :
    (encodeFrame p m).length = headerLen + m.payload.length := by
  simp only [encodeFrame_eq, List.length_cons, headerLen]
  omega

theorem encodeFrame_ne_nil (p : Params) (m : Message) : encodeFrame p m ≠ [] := by
  simp [encodeFrame_eq]

@[simp] theorem classify_nil (p : Params) : classify p [] = none := rfl

/-- The constraints of a well-formed instance, as inequalities (20_memory.md R55). -/
theorem Params.wf_iff {p : Params} :
    p.wf = true ↔
      5 + p.rxMaxPayloadLen ≤ p.rxBytesCap ∧ 5 + p.rxMaxPayloadLen ≤ p.txBytesCap ∧ 6 + p.maxAppData ≤ p.txBytesCap ∧
      1 ≤ p.txQueueCap ∧ 1 ≤ p.rxQueueCap ∧ p.rxMaxPayloadLen ≤ 63 ∧ 1 + p.maxAppData ≤ 63 := by
  rw [Params.wf]
  rw [Bool.and_eq_true, Bool.and_eq_true, Bool.and_eq_true, Bool.and_eq_true, Bool.and_eq_true, Bool.and_eq_true,
    decide_eq_true_eq, decide_eq_true_eq, decide_eq_true_eq, decide_eq_true_eq, decide_eq_true_eq, decide_eq_true_eq,
    decide_eq_true_eq, Params.maxFrameLen, headerLen, maxPayloadLen]
  omega

/-- A receivable message, as inequalities (41_receive.md R133). -/
theorem Message.receivable_iff {p : Params} {m : Message} :
    m.receivable p = true ↔ m.payload.length ≤ 63 ∧ m.payload.length ≤ p.rxMaxPayloadLen := by
  rw [Message.receivable, Message.wf, Bool.and_eq_true, decide_eq_true_eq, decide_eq_true_eq, maxPayloadLen]

/-- Only the empty sequence has no head (30_encoding.md R79). -/
theorem classify_eq_none {p : Params} {s : List Byte} : classify p s = none ↔ s = [] := by
  constructor
  · intro h
    cases s with
    | nil => rfl
    | cons b t =>
      simp only [classify] at h
      repeat' (split at h <;> try contradiction)
  · rintro rfl
    rfl

theorem classify_notMagic {p : Params} {b : Byte} {s : List Byte} (h : b ≠ p.magic) :
    classify p (b :: s) = some .notMagic := by
  simp [classify, h]

/-- The decision at a `MAGIC` byte: length, then completeness, then checksum, then kind (41_receive.md R130). -/
theorem classify_magic (p : Params) (t : List Byte) :
    classify p (p.magic :: t) =
      if t.length < 4 then some .incompleteHeader
      else if p.rxMaxPayloadLen < (byteAt t 0).toNat then some .badLen
      else if t.length < 4 + (byteAt t 0).toNat then some .incompleteFrame
      else if checksumMatches (p.magic :: t.take (4 + (byteAt t 0).toNat)) then
        match decodeFrame (p.magic :: t.take (4 + (byteAt t 0).toNat)) with
        | .incomplete => some .incompleteFrame
        | .frame m _ => some (frameKind p m)
      else some .badCsum := by
  have e1 : ((p.magic :: t).length < headerLen) = (t.length < 4) := by
    simp only [List.length_cons, headerLen, eq_iff_iff]
    omega
  have e2 : ∀ n, ((p.magic :: t).length < headerLen + n) = (t.length < 4 + n) := by
    intro n
    simp only [List.length_cons, headerLen, eq_iff_iff]
    omega
  have e3 : ∀ n, (p.magic :: t).take (headerLen + n) = p.magic :: t.take (4 + n) := by
    intro n
    rw [headerLen, show 5 + n = (4 + n) + 1 by omega, List.take_succ_cons]
  have e4 : byteAt (p.magic :: t) 1 = byteAt t 0 := rfl
  simp only [classify, ne_eq, not_true, if_false, e1, e2, e3, e4] <;> rfl

/-- The kind of a frame is one of the four frame heads. -/
theorem frameKind_cases (p : Params) (m : Message) :
    (m.sender = p.localId ∧ frameKind p m = .echo m) ∨
    (m.sender ≠ p.localId ∧ m.ack = 1 ∧ frameKind p m = .ack m) ∨
    (m.sender ≠ p.localId ∧ m.ack ≠ 1 ∧ m.reset = 1 ∧ frameKind p m = .reset m) ∨
    (m.sender ≠ p.localId ∧ m.ack ≠ 1 ∧ m.reset ≠ 1 ∧ frameKind p m = .data m) := by
  unfold frameKind
  split
  · simp_all
  · split
    · simp_all
    · split <;> simp_all

end Sys2Proof
end

