-- ==== Sys2Proof/Laws/State.lean ====
section
/-! SUPPORT. What each named update of State.lean leaves and writes, field by field. A field of the link record is read
through the `link` lemma of the update and the projection of the record it gives. -/

namespace Sys2Proof.Machine

@[simp] theorem State.setEnabled_params (s : State) (v : Bool) : (s.setEnabled v).params = s.params := rfl
@[simp] theorem State.setEnabled_link (s : State) (v : Bool) : (s.setEnabled v).link = { s.link with enabled := v } := rfl
@[simp] theorem State.setEnabled_events (s : State) (v : Bool) : (s.setEnabled v).events = s.events := rfl
@[simp] theorem State.setEnabled_out (s : State) (v : Bool) : (s.setEnabled v).out = s.out := rfl
@[simp] theorem State.setEnabled_labels (s : State) (v : Bool) : (s.setEnabled v).labels = s.labels := rfl

@[simp] theorem State.setNextMsgId_params (s : State) (v : MsgId) : (s.setNextMsgId v).params = s.params := rfl
@[simp] theorem State.setNextMsgId_link (s : State) (v : MsgId) : (s.setNextMsgId v).link = { s.link with nextMsgId := v } := rfl
@[simp] theorem State.setNextMsgId_events (s : State) (v : MsgId) : (s.setNextMsgId v).events = s.events := rfl
@[simp] theorem State.setNextMsgId_out (s : State) (v : MsgId) : (s.setNextMsgId v).out = s.out := rfl
@[simp] theorem State.setNextMsgId_labels (s : State) (v : MsgId) : (s.setNextMsgId v).labels = s.labels := rfl

@[simp] theorem State.setLastReceivedId_params (s : State) (v : Option MsgId) : (s.setLastReceivedId v).params = s.params := rfl
@[simp] theorem State.setLastReceivedId_link (s : State) (v : Option MsgId) : (s.setLastReceivedId v).link = { s.link with lastReceivedId := v } := rfl
@[simp] theorem State.setLastReceivedId_events (s : State) (v : Option MsgId) : (s.setLastReceivedId v).events = s.events := rfl
@[simp] theorem State.setLastReceivedId_out (s : State) (v : Option MsgId) : (s.setLastReceivedId v).out = s.out := rfl
@[simp] theorem State.setLastReceivedId_labels (s : State) (v : Option MsgId) : (s.setLastReceivedId v).labels = s.labels := rfl

@[simp] theorem State.setPending_params (s : State) (v : Option Message) : (s.setPending v).params = s.params := rfl
@[simp] theorem State.setPending_link (s : State) (v : Option Message) : (s.setPending v).link = { s.link with pending := v } := rfl
@[simp] theorem State.setPending_events (s : State) (v : Option Message) : (s.setPending v).events = s.events := rfl
@[simp] theorem State.setPending_out (s : State) (v : Option Message) : (s.setPending v).out = s.out := rfl
@[simp] theorem State.setPending_labels (s : State) (v : Option Message) : (s.setPending v).labels = s.labels := rfl

@[simp] theorem State.setRetryCount_params (s : State) (v : Nat) : (s.setRetryCount v).params = s.params := rfl
@[simp] theorem State.setRetryCount_link (s : State) (v : Nat) : (s.setRetryCount v).link = { s.link with retryCount := v } := rfl
@[simp] theorem State.setRetryCount_events (s : State) (v : Nat) : (s.setRetryCount v).events = s.events := rfl
@[simp] theorem State.setRetryCount_out (s : State) (v : Nat) : (s.setRetryCount v).out = s.out := rfl
@[simp] theorem State.setRetryCount_labels (s : State) (v : Nat) : (s.setRetryCount v).labels = s.labels := rfl

@[simp] theorem State.setLastSendTime_params (s : State) (v : Timestamp) : (s.setLastSendTime v).params = s.params := rfl
@[simp] theorem State.setLastSendTime_link (s : State) (v : Timestamp) : (s.setLastSendTime v).link = { s.link with lastSendTime := v } := rfl
@[simp] theorem State.setLastSendTime_events (s : State) (v : Timestamp) : (s.setLastSendTime v).events = s.events := rfl
@[simp] theorem State.setLastSendTime_out (s : State) (v : Timestamp) : (s.setLastSendTime v).out = s.out := rfl
@[simp] theorem State.setLastSendTime_labels (s : State) (v : Timestamp) : (s.setLastSendTime v).labels = s.labels := rfl

@[simp] theorem State.setPeerAck_params (s : State) (v : Option MsgId) : (s.setPeerAck v).params = s.params := rfl
@[simp] theorem State.setPeerAck_link (s : State) (v : Option MsgId) : (s.setPeerAck v).link = { s.link with peerAck := v } := rfl
@[simp] theorem State.setPeerAck_events (s : State) (v : Option MsgId) : (s.setPeerAck v).events = s.events := rfl
@[simp] theorem State.setPeerAck_out (s : State) (v : Option MsgId) : (s.setPeerAck v).out = s.out := rfl
@[simp] theorem State.setPeerAck_labels (s : State) (v : Option MsgId) : (s.setPeerAck v).labels = s.labels := rfl

@[simp] theorem State.setTxQueue_params (s : State) (v : List Message) : (s.setTxQueue v).params = s.params := rfl
@[simp] theorem State.setTxQueue_link (s : State) (v : List Message) : (s.setTxQueue v).link = { s.link with txQueue := v } := rfl
@[simp] theorem State.setTxQueue_events (s : State) (v : List Message) : (s.setTxQueue v).events = s.events := rfl
@[simp] theorem State.setTxQueue_out (s : State) (v : List Message) : (s.setTxQueue v).out = s.out := rfl
@[simp] theorem State.setTxQueue_labels (s : State) (v : List Message) : (s.setTxQueue v).labels = s.labels := rfl

@[simp] theorem State.setRxQueue_params (s : State) (v : List Message) : (s.setRxQueue v).params = s.params := rfl
@[simp] theorem State.setRxQueue_link (s : State) (v : List Message) : (s.setRxQueue v).link = { s.link with rxQueue := v } := rfl
@[simp] theorem State.setRxQueue_events (s : State) (v : List Message) : (s.setRxQueue v).events = s.events := rfl
@[simp] theorem State.setRxQueue_out (s : State) (v : List Message) : (s.setRxQueue v).out = s.out := rfl
@[simp] theorem State.setRxQueue_labels (s : State) (v : List Message) : (s.setRxQueue v).labels = s.labels := rfl

@[simp] theorem State.setTxBytes_params (s : State) (v : List Byte) : (s.setTxBytes v).params = s.params := rfl
@[simp] theorem State.setTxBytes_link (s : State) (v : List Byte) : (s.setTxBytes v).link = { s.link with txBytes := v } := rfl
@[simp] theorem State.setTxBytes_events (s : State) (v : List Byte) : (s.setTxBytes v).events = s.events := rfl
@[simp] theorem State.setTxBytes_out (s : State) (v : List Byte) : (s.setTxBytes v).out = s.out := rfl
@[simp] theorem State.setTxBytes_labels (s : State) (v : List Byte) : (s.setTxBytes v).labels = s.labels := rfl

@[simp] theorem State.setRxBytes_params (s : State) (v : List Byte) : (s.setRxBytes v).params = s.params := rfl
@[simp] theorem State.setRxBytes_link (s : State) (v : List Byte) : (s.setRxBytes v).link = { s.link with rxBytes := v } := rfl
@[simp] theorem State.setRxBytes_events (s : State) (v : List Byte) : (s.setRxBytes v).events = s.events := rfl
@[simp] theorem State.setRxBytes_out (s : State) (v : List Byte) : (s.setRxBytes v).out = s.out := rfl
@[simp] theorem State.setRxBytes_labels (s : State) (v : List Byte) : (s.setRxBytes v).labels = s.labels := rfl

@[simp] theorem State.setWakeDeadline_params (s : State) (v : Option Timestamp) : (s.setWakeDeadline v).params = s.params := rfl
@[simp] theorem State.setWakeDeadline_link (s : State) (v : Option Timestamp) : (s.setWakeDeadline v).link = { s.link with wakeDeadline := v } := rfl
@[simp] theorem State.setWakeDeadline_events (s : State) (v : Option Timestamp) : (s.setWakeDeadline v).events = s.events := rfl
@[simp] theorem State.setWakeDeadline_out (s : State) (v : Option Timestamp) : (s.setWakeDeadline v).out = s.out := rfl
@[simp] theorem State.setWakeDeadline_labels (s : State) (v : Option Timestamp) : (s.setWakeDeadline v).labels = s.labels := rfl

@[simp] theorem State.setRxOverrun_params (s : State) (v : Bool) : (s.setRxOverrun v).params = s.params := rfl
@[simp] theorem State.setRxOverrun_link (s : State) (v : Bool) : (s.setRxOverrun v).link = { s.link with stRxOverrun := v } := rfl
@[simp] theorem State.setRxOverrun_events (s : State) (v : Bool) : (s.setRxOverrun v).events = s.events := rfl
@[simp] theorem State.setRxOverrun_out (s : State) (v : Bool) : (s.setRxOverrun v).out = s.out := rfl
@[simp] theorem State.setRxOverrun_labels (s : State) (v : Bool) : (s.setRxOverrun v).labels = s.labels := rfl

@[simp] theorem State.setAckDropped_params (s : State) (v : Bool) : (s.setAckDropped v).params = s.params := rfl
@[simp] theorem State.setAckDropped_link (s : State) (v : Bool) : (s.setAckDropped v).link = { s.link with stAckDropped := v } := rfl
@[simp] theorem State.setAckDropped_events (s : State) (v : Bool) : (s.setAckDropped v).events = s.events := rfl
@[simp] theorem State.setAckDropped_out (s : State) (v : Bool) : (s.setAckDropped v).out = s.out := rfl
@[simp] theorem State.setAckDropped_labels (s : State) (v : Bool) : (s.setAckDropped v).labels = s.labels := rfl

@[simp] theorem State.setRxqDropped_params (s : State) (v : Bool) : (s.setRxqDropped v).params = s.params := rfl
@[simp] theorem State.setRxqDropped_link (s : State) (v : Bool) : (s.setRxqDropped v).link = { s.link with stRxqDropped := v } := rfl
@[simp] theorem State.setRxqDropped_events (s : State) (v : Bool) : (s.setRxqDropped v).events = s.events := rfl
@[simp] theorem State.setRxqDropped_out (s : State) (v : Bool) : (s.setRxqDropped v).out = s.out := rfl
@[simp] theorem State.setRxqDropped_labels (s : State) (v : Bool) : (s.setRxqDropped v).labels = s.labels := rfl

@[simp] theorem State.setEvents_params (s : State) (v : List Event) : (s.setEvents v).params = s.params := rfl
@[simp] theorem State.setEvents_link (s : State) (v : List Event) : (s.setEvents v).link = s.link := rfl
@[simp] theorem State.setEvents_events (s : State) (v : List Event) : (s.setEvents v).events = v := rfl
@[simp] theorem State.setEvents_out (s : State) (v : List Event) : (s.setEvents v).out = s.out := rfl
@[simp] theorem State.setEvents_labels (s : State) (v : List Event) : (s.setEvents v).labels = s.labels := rfl

@[simp] theorem State.setOut_params (s : State) (v : Output) : (s.setOut v).params = s.params := rfl
@[simp] theorem State.setOut_link (s : State) (v : Output) : (s.setOut v).link = s.link := rfl
@[simp] theorem State.setOut_events (s : State) (v : Output) : (s.setOut v).events = s.events := rfl
@[simp] theorem State.setOut_out (s : State) (v : Output) : (s.setOut v).out = v := rfl
@[simp] theorem State.setOut_labels (s : State) (v : Output) : (s.setOut v).labels = s.labels := rfl

@[simp] theorem State.addLabels_params (s : State) (v : List Label) : (s.addLabels v).params = s.params := rfl
@[simp] theorem State.addLabels_link (s : State) (v : List Label) : (s.addLabels v).link = s.link := rfl
@[simp] theorem State.addLabels_events (s : State) (v : List Label) : (s.addLabels v).events = s.events := rfl
@[simp] theorem State.addLabels_out (s : State) (v : List Label) : (s.addLabels v).out = s.out := rfl
@[simp] theorem State.addLabels_labels (s : State) (v : List Label) : (s.addLabels v).labels = s.labels ++ v := rfl

@[simp] theorem State.addLabel_params (s : State) (v : Label) : (s.addLabel v).params = s.params := rfl
@[simp] theorem State.addLabel_link (s : State) (v : Label) : (s.addLabel v).link = s.link := rfl
@[simp] theorem State.addLabel_events (s : State) (v : Label) : (s.addLabel v).events = s.events := rfl
@[simp] theorem State.addLabel_out (s : State) (v : Label) : (s.addLabel v).out = s.out := rfl
@[simp] theorem State.addLabel_labels (s : State) (v : Label) : (s.addLabel v).labels = s.labels ++ [v] := rfl

@[simp] theorem State.clearLabels_params (s : State) : s.clearLabels.params = s.params := rfl
@[simp] theorem State.clearLabels_link (s : State) : s.clearLabels.link = s.link := rfl
@[simp] theorem State.clearLabels_events (s : State) : s.clearLabels.events = s.events := rfl
@[simp] theorem State.clearLabels_out (s : State) : s.clearLabels.out = s.out := rfl
@[simp] theorem State.clearLabels_labels (s : State) : s.clearLabels.labels = [] := rfl

@[simp] theorem State.powerOn_params (p : Params) : (State.powerOn p).params = p := rfl
@[simp] theorem State.powerOn_link (p : Params) : (State.powerOn p).link = Link.powerOn := rfl
@[simp] theorem State.powerOn_events (p : Params) : (State.powerOn p).events = [] := rfl
@[simp] theorem State.powerOn_out (p : Params) : (State.powerOn p).out = .none := rfl
@[simp] theorem State.powerOn_labels (p : Params) : (State.powerOn p).labels = [] := rfl

/-- Two states agree when all five fields do. -/
theorem State.ext_fields {s t : State} (hp : s.params = t.params) (hl : s.link = t.link) (he : s.events = t.events)
    (ho : s.out = t.out) (hb : s.labels = t.labels) : s = t := by
  cases s
  cases t
  simp_all

end Sys2Proof.Machine
end

