-- ==== Sys2Proof/Laws/Ops.lean ====
section
/-! SUPPORT. What each shared operation can do, said once: the rings and queues keep their capacity, the receive and
transmit operations by the fields they write. -/

namespace Sys2Proof.Machine

/-! ### Rings and queues -/

theorem rbPush_some {cap : Nat} {q s q' : List Byte} :
    rbPush cap q s = some q' ↔ q.length + s.length ≤ cap ∧ q' = q ++ s := by
  unfold rbPush
  split <;> simp_all [eq_comm]

theorem rbPush_none {cap : Nat} {q s : List Byte} : rbPush cap q s = none ↔ cap < q.length + s.length := by
  unfold rbPush
  split <;> simp <;> omega

theorem rbPush_keeps_capacity {cap : Nat} {q s q' : List Byte} (h : rbPush cap q s = some q') : q'.length ≤ cap := by
  obtain ⟨hlen, rfl⟩ := rbPush_some.1 h
  simpa using hlen

theorem rbDrop_keeps_capacity {cap n : Nat} {q : List Byte} (h : q.length ≤ cap) : (rbDrop q n).length ≤ cap := by
  simp only [rbDrop, List.length_drop]
  omega

theorem rbPop_keeps_capacity {cap : Nat} {q rest : List Byte} {b : Byte} (hp : rbPop q = some (b, rest))
    (h : q.length ≤ cap) : rest.length ≤ cap := by
  cases q with
  | nil => simp [rbPop] at hp
  | cons c t =>
    simp only [rbPop, Option.some.injEq, Prod.mk.injEq] at hp
    obtain ⟨-, rfl⟩ := hp
    simp only [List.length_cons] at h
    omega

@[simp] theorem rbPop_cons (b : Byte) (rest : List Byte) : rbPop (b :: rest) = some (b, rest) := rfl

@[simp] theorem rbPop_nil : rbPop [] = none := rfl

theorem qPush_some {cap : Nat} {q q' : List Message} {m : Message} :
    qPush cap q m = some q' ↔ q.length < cap ∧ q' = q ++ [m] := by
  unfold qPush
  split <;> simp_all [eq_comm]

theorem qPush_none {cap : Nat} {q : List Message} {m : Message} : qPush cap q m = none ↔ cap ≤ q.length := by
  unfold qPush
  split <;> simp <;> omega

theorem qPush_keeps_capacity {cap : Nat} {q q' : List Message} {m : Message} (h : qPush cap q m = some q') :
    q'.length ≤ cap := by
  obtain ⟨hlen, rfl⟩ := qPush_some.1 h
  simp only [List.length_append, List.length_singleton]
  omega

@[simp] theorem qPop_cons (m : Message) (rest : List Message) : qPop (m :: rest) = some (m, rest) := rfl

@[simp] theorem qPop_nil : qPop [] = none := rfl

/-- The head is the message `QPop` removes (20_memory.md R54). -/
theorem qHead_eq_qPop (q : List Message) : qHead q = (qPop q).map Prod.fst := by
  cases q <;> rfl

/-! ### Link reset -/

@[simp] theorem State.resetLink_params (s : State) : s.resetLink.params = s.params := rfl
@[simp] theorem State.resetLink_link (s : State) : s.resetLink.link = s.link.cleared := rfl
@[simp] theorem State.resetLink_events (s : State) : s.resetLink.events = s.events := rfl
@[simp] theorem State.resetLink_out (s : State) : s.resetLink.out = s.out := rfl
@[simp] theorem State.resetLink_labels (s : State) : s.resetLink.labels = s.labels := rfl
@[simp] theorem Link.cleared_enabled (l : Link) : l.cleared.enabled = l.enabled := rfl
@[simp] theorem Link.cleared_txQueue (l : Link) : l.cleared.txQueue = [] := rfl
@[simp] theorem Link.cleared_rxQueue (l : Link) : l.cleared.rxQueue = [] := rfl
@[simp] theorem Link.cleared_txBytes (l : Link) : l.cleared.txBytes = [] := rfl
@[simp] theorem Link.cleared_rxBytes (l : Link) : l.cleared.rxBytes = [] := rfl
@[simp] theorem Link.cleared_pending (l : Link) : l.cleared.pending = none := rfl
@[simp] theorem Link.cleared_nextMsgId (l : Link) : l.cleared.nextMsgId = 0 := rfl

/-- Queueing for transmission appends the message or changes nothing (20_memory.md R54). -/
theorem State.queueTx_cases (m : Message) (s : State) :
    (s.link.txQueue.length < s.params.txQueueCap ∧ s.queueTx m = s.setTxQueue (s.link.txQueue ++ [m])) ∨
    (s.params.txQueueCap ≤ s.link.txQueue.length ∧ s.queueTx m = s) := by
  unfold State.queueTx
  split
  next q h => exact .inl ⟨(qPush_some.1 h).1, by rw [(qPush_some.1 h).2]⟩
  next h => exact .inr ⟨qPush_none.1 h, rfl⟩

/-- `send_reset` leaves the reset frame queued, since the queue is empty (43_link_control.md R191). -/
theorem State.resetAndAnnounce_eq {s : State} (h : 1 ≤ s.params.txQueueCap) :
    s.resetAndAnnounce = s.resetLink.setTxQueue [resetMessage s.params] := by
  rcases State.queueTx_cases (resetMessage s.params) s.resetLink with ⟨_, he⟩ | ⟨hc, _⟩
  · simpa [State.resetAndAnnounce] using he
  · simp only [State.resetLink_params, State.resetLink_link, Link.cleared_txQueue, List.length_nil] at hc
    omega

/-! ### Receive side -/

/-- An ack is pushed whole or dropped whole and flagged (41_receive.md R138). -/
theorem State.pushAck_cases (id : MsgId) (s : State) :
    (s.link.txBytes.length + headerLen ≤ s.params.txBytesCap ∧
      s.pushAck id = s.setTxBytes (s.link.txBytes ++ encodeFrame s.params (ackMessage s.params id))) ∨
    (s.params.txBytesCap < s.link.txBytes.length + headerLen ∧ s.pushAck id = s.setAckDropped true) := by
  have hlen : (encodeFrame s.params (ackMessage s.params id)).length = headerLen := by
    simp [ackMessage]
  unfold State.pushAck
  split
  next q h => exact .inl ⟨hlen ▸ (rbPush_some.1 h).1, by rw [(rbPush_some.1 h).2]⟩
  next h => exact .inr ⟨hlen ▸ rbPush_none.1 h, rfl⟩

/-- A message is queued for delivery or dropped and flagged (41_receive.md R138). -/
theorem State.queueRx_cases (m : Message) (s : State) :
    (s.link.rxQueue.length < s.params.rxQueueCap ∧ s.queueRx m = s.setRxQueue (s.link.rxQueue ++ [m])) ∨
    (s.params.rxQueueCap ≤ s.link.rxQueue.length ∧ s.queueRx m = s.setRxqDropped true) := by
  unfold State.queueRx
  split
  next q h => exact .inl ⟨(qPush_some.1 h).1, by rw [(qPush_some.1 h).2]⟩
  next h => exact .inr ⟨qPush_none.1 h, rfl⟩

@[simp] theorem State.pushAck_params (id : MsgId) (s : State) : (s.pushAck id).params = s.params := by
  rcases State.pushAck_cases id s with ⟨_, h⟩ | ⟨_, h⟩ <;> simp [h]

@[simp] theorem State.queueRx_params (m : Message) (s : State) : (s.queueRx m).params = s.params := by
  rcases State.queueRx_cases m s with ⟨_, h⟩ | ⟨_, h⟩ <;> simp [h]

@[simp] theorem State.pushAck_lastReceivedId (id : MsgId) (s : State) :
    (s.pushAck id).link.lastReceivedId = s.link.lastReceivedId := by
  rcases State.pushAck_cases id s with ⟨_, h⟩ | ⟨_, h⟩ <;> simp [h]

/-- A data frame is novel and queued, or a duplicate and only acked again (41_receive.md R138). -/
theorem State.acceptData_cases (m : Message) (s : State) :
    (s.link.lastReceivedId ≠ some m.msgId ∧
      s.acceptData m =
        (((s.pushAck m.msgId).setLastReceivedId (some m.msgId)).addLabel (.novel m.msgId)).queueRx m) ∨
    (s.link.lastReceivedId = some m.msgId ∧ s.acceptData m = (s.pushAck m.msgId).addLabel (.dup m.msgId)) := by
  by_cases h : s.link.lastReceivedId = some m.msgId
  · exact .inr ⟨h, by simp [State.acceptData, h]⟩
  · exact .inl ⟨h, by simp [State.acceptData, h]⟩

@[simp] theorem State.acceptData_params (m : Message) (s : State) : (s.acceptData m).params = s.params := by
  rcases State.acceptData_cases m s with ⟨_, h⟩ | ⟨_, h⟩ <;> simp [h]

@[simp] theorem State.runHead_params (h : Head) (s : State) : (s.runHead h).params = s.params := by
  cases h <;> simp [State.runHead, State.discardByte, State.consumeFrame]

/-- A received byte is pushed, or lost and flagged (41_receive.md R131). -/
theorem State.bufferByte_cases (b : Byte) (s : State) :
    (s.link.rxBytes.length < s.params.rxBytesCap ∧ s.bufferByte b = s.setRxBytes (s.link.rxBytes ++ [b])) ∨
    (s.params.rxBytesCap ≤ s.link.rxBytes.length ∧ s.bufferByte b = s.setRxOverrun true) := by
  unfold State.bufferByte
  split
  next q h => exact .inl ⟨(rbPush_some.1 h).1, by rw [(rbPush_some.1 h).2]⟩
  next h => exact .inr ⟨Nat.lt_succ_iff.1 (rbPush_none.1 h), rfl⟩

@[simp] theorem State.bufferByte_params (b : Byte) (s : State) : (s.bufferByte b).params = s.params := by
  rcases State.bufferByte_cases b s with ⟨_, h⟩ | ⟨_, h⟩ <;> simp [h]

/-- One pass of the receive scan. -/
theorem State.scanWithin_succ (fuel : Nat) (s : State) :
    s.scanWithin (fuel + 1) =
      match classify s.params s.link.rxBytes with
      | none => s
      | some h => if stopsScan h then s.runHead h else (s.runHead h).scanWithin fuel := rfl

@[simp] theorem State.scanWithin_zero (s : State) : s.scanWithin 0 = s := rfl

/-- A property that every head's run keeps is kept by the receive scan: the scan's induction, packaged once. -/
theorem State.scanWithin_keeps {P : State → Prop}
    (hrun : ∀ h s, P s → classify s.params s.link.rxBytes = some h → P (s.runHead h)) :
    ∀ fuel s, P s → P (s.scanWithin fuel) := by
  intro fuel
  induction fuel with
  | zero => intro s hs; exact hs
  | succ n ih =>
    intro s hs
    rw [State.scanWithin_succ]
    split
    · exact hs
    next h hc =>
      split
      · exact hrun h s hs hc
      · exact ih _ (hrun h s hs hc)

/-! ### Transmit side -/

/-- A frame is pushed whole, or nothing happens (20_memory.md R51). -/
theorem State.pushFrame_cases (m : Message) (s : State) :
    (s.link.txBytes.length + frameLength m ≤ s.params.txBytesCap ∧
      s.pushFrame m = s.setTxBytes (s.link.txBytes ++ encodeFrame s.params m)) ∨
    (s.params.txBytesCap < s.link.txBytes.length + frameLength m ∧ s.pushFrame m = s) := by
  have hlen : (encodeFrame s.params m).length = frameLength m := encodeFrame_length _ _
  unfold State.pushFrame
  split
  next q h => exact .inl ⟨hlen ▸ (rbPush_some.1 h).1, by rw [(rbPush_some.1 h).2]⟩
  next h => exact .inr ⟨hlen ▸ rbPush_none.1 h, rfl⟩

/-- A disabled link selects no branch (43_link_control.md R194). -/
theorem selectBranch_disabled {p : Params} {now : Timestamp} {l : Link} (h : l.enabled = false) :
    selectBranch p now l = none := by
  simp [selectBranch, h]

/-- An enabled link selects a branch (42_transmit.md R161). -/
theorem selectBranch_enabled {p : Params} {now : Timestamp} {l : Link} (h : l.enabled = true) :
    ∃ b, selectBranch p now l = some b := by
  unfold selectBranch
  simp only [h, Bool.not_true]
  repeat' split
  all_goals first | exact ⟨_, rfl⟩ | contradiction

/-- The condition under which each branch is selected (42_transmit.md R161 to R168). -/
theorem selectBranch_some {p : Params} {now : Timestamp} {l : Link} {b : Branch} (h : selectBranch p now l = some b) :
    l.enabled = true ∧
    match b with
    | .drain => l.txBytes ≠ []
    | .acked => l.txBytes = [] ∧ l.isAcked = true
    | .start => l.txBytes = [] ∧ l.isAcked = false ∧ l.pending = none ∧ l.txQueue ≠ []
    | .retry => l.txBytes = [] ∧ l.isAcked = false ∧ l.isDue p now = true ∧ l.retryCount < p.maxRetries
    | .exhaust => l.txBytes = [] ∧ l.isAcked = false ∧ l.isDue p now = true ∧ p.maxRetries ≤ l.retryCount
    | .wait => l.txBytes = [] ∧ l.isAcked = false ∧ (l.pending = none → l.txQueue = []) ∧ l.isDue p now = false := by
  unfold selectBranch at h
  repeat' split at h
  all_goals first | contradiction | (cases h; simp_all)

end Sys2Proof.Machine
end

