-- ==== Sys2Proof/Laws/PerInstr.lean ====
section
/-! SUPPORT. Facts about the instructions as syntax, one lemma per constructor. Family EncodedLength: a well-formed row
that has a byte form takes 5 to 68 bytes (30_encoding.md R70). -/

namespace Sys2Proof.Laws.EncodedLength

/-- "The frame length is `HEADER_LEN + payload_len`, 5 to 68 bytes" (30_encoding.md R70). -/
def Statement (i : Instr) : Prop :=
  ∀ p bytes, i.wf p = true → encodeInstr p i = some bytes → headerLen ≤ bytes.length ∧ bytes.length ≤ headerLen + maxPayloadLen

/-- The length of a receivable message's frame. -/
theorem of_receivable {p : Params} {m : Message} (h : m.receivable p = true) :
    headerLen ≤ (encodeFrame p m).length ∧ (encodeFrame p m).length ≤ headerLen + maxPayloadLen := by
  simp only [Message.receivable, Message.wf, Bool.and_eq_true, decide_eq_true_eq] at h
  rw [encodeFrame_length]
  omega

theorem echoFrame (m : Message) : Statement (.echoFrame m) := by
  intro p bytes h hb
  cases hb
  simp only [Instr.wf, Bool.and_eq_true] at h
  exact of_receivable h.1

theorem ackFrame (m : Message) : Statement (.ackFrame m) := by
  intro p bytes h hb
  cases hb
  simp only [Instr.wf, Bool.and_eq_true] at h
  exact of_receivable h.1.1

theorem resetFrame (m : Message) : Statement (.resetFrame m) := by
  intro p bytes h hb
  cases hb
  simp only [Instr.wf, Bool.and_eq_true] at h
  exact of_receivable h.1.1.1

theorem dataFrame (m : Message) : Statement (.dataFrame m) := by
  intro p bytes h hb
  cases hb
  simp only [Instr.wf, Bool.and_eq_true] at h
  exact of_receivable h.1.1.1

theorem notMagic : Statement .notMagic := fun _ _ _ h => nomatch h

theorem incompleteHeader : Statement .incompleteHeader := fun _ _ _ h => nomatch h

theorem badLen : Statement .badLen := fun _ _ _ h => nomatch h

theorem incompleteFrame : Statement .incompleteFrame := fun _ _ _ h => nomatch h

theorem badCsum : Statement .badCsum := fun _ _ _ h => nomatch h

theorem rxByte (b : Byte) : Statement (.rxByte b) := fun _ _ _ h => nomatch h

theorem txOpp (n : Timestamp) (u : Bool) : Statement (.txOpp n u) := fun _ _ _ h => nomatch h

theorem timer (n : Timestamp) : Statement (.timer n) := fun _ _ _ h => nomatch h

theorem send (c : Byte) (d : List Byte) : Statement (.send c d) := fun _ _ _ h => nomatch h

theorem enable : Statement .enable := fun _ _ _ h => nomatch h

theorem rxPop : Statement .rxPop := fun _ _ _ h => nomatch h

theorem status : Statement .status := fun _ _ _ h => nomatch h

theorem checksum (f : List Byte) : Statement (.checksum f) := fun _ _ _ h => nomatch h

theorem checksumOk (f : List Byte) : Statement (.checksumOk f) := fun _ _ _ h => nomatch h

theorem packBitfield (a b c : Bit) (d : MsgId) : Statement (.packBitfield a b c d) := fun _ _ _ h => nomatch h

theorem unpackBitfield (b : Byte) : Statement (.unpackBitfield b) := fun _ _ _ h => nomatch h

theorem encode (m : Message) : Statement (.encode m) := fun _ _ _ h => nomatch h

theorem decode (x : List Byte) : Statement (.decode x) := fun _ _ _ h => nomatch h

theorem findHeader : Statement .findHeader := fun _ _ _ h => nomatch h

theorem makeAck (d : MsgId) : Statement (.makeAck d) := fun _ _ _ h => nomatch h

theorem makeReset : Statement .makeReset := fun _ _ _ h => nomatch h

theorem rxScan : Statement .rxScan := fun _ _ _ h => nomatch h

theorem linkReset : Statement .linkReset := fun _ _ _ h => nomatch h

theorem sendReset : Statement .sendReset := fun _ _ _ h => nomatch h

theorem arbDrain (n : Timestamp) (u : Bool) : Statement (.arbDrain n u) := fun _ _ _ h => nomatch h

theorem arbAcked (n : Timestamp) (u : Bool) : Statement (.arbAcked n u) := fun _ _ _ h => nomatch h

theorem arbStart (n : Timestamp) (u : Bool) : Statement (.arbStart n u) := fun _ _ _ h => nomatch h

theorem arbRetryDue (n : Timestamp) (u : Bool) : Statement (.arbRetryDue n u) := fun _ _ _ h => nomatch h

theorem arbRetry (n : Timestamp) (u : Bool) : Statement (.arbRetry n u) := fun _ _ _ h => nomatch h

theorem arbExhaust (n : Timestamp) (u : Bool) : Statement (.arbExhaust n u) := fun _ _ _ h => nomatch h

theorem arbWait (n : Timestamp) (u : Bool) : Statement (.arbWait n u) := fun _ _ _ h => nomatch h

end Sys2Proof.Laws.EncodedLength
end

