-- ==== Sys2Proof/Tests/Slice0.lean ====
section
/-! SUPPORT. Tests on small states: well-formedness refusals, words written out from the encoding, one step per
instruction, and a witness for the hypotheses of every statement that has some. Expected values are the vectors of
95_test_vectors.md (named C-, R-, S-, T-, K- as there) or computed by hand from the rule named. -/

namespace Sys2Proof.Tests

open Sys2Proof Sys2Proof.Machine

/-- An enabled link A or B of the example instance, its link record changed by `f`. -/
def linkA (f : Link → Link) : State :=
  { State.powerOn Params.exampleA with link := f { Link.powerOn with enabled := true } }

def linkB (f : Link → Link) : State :=
  { State.powerOn Params.exampleB with link := f { Link.powerOn with enabled := true } }

/-- The next state's link record, if there is a next state. -/
def linkOf (o : Host.Outcome State Fault Refusal) : Option Link :=
  match o with
  | .next t => some t.link
  | .fault _ => none
  | .refused _ => none

/-- The next state's output port, if there is a next state. -/
def outOf (o : Host.Outcome State Fault Refusal) : Option Output :=
  match o with
  | .next t => some t.out
  | .fault _ => none
  | .refused _ => none

def message (sender reset ack : Bit) (id : MsgId) (payload : List Byte) : Message :=
  { sender := sender, reset := reset, ack := ack, msgId := id, payload := payload }

/-- The message and the frame of 95_test_vectors.md L1.1. -/
def m0 : Message := message 0 0 0 0 [5, 6, 7, 8]
def frame0 : List Byte := [0xEC, 0x04, 0xFA, 0x10, 0x00, 0x05, 0x06, 0x07, 0x08]

/-! ### Well-formedness refuses -/

theorem test_wf_example : Params.exampleA.wf = true ∧ Params.exampleB.wf = true := by decide
theorem test_wf_rx_ring : ({ Params.exampleA with rxBytesCap := 67 } : Params).wf = false := by decide
theorem test_wf_tx_ring : ({ Params.exampleA with txBytesCap := 67, maxAppData := 10 } : Params).wf = false := by decide
theorem test_wf_tx_ring_send : ({ Params.exampleA with txBytesCap := 67, rxMaxPayloadLen := 10 } : Params).wf = false := by
  decide
theorem test_wf_tx_queue : ({ Params.exampleA with txQueueCap := 0 } : Params).wf = false := by decide
theorem test_wf_rx_queue : ({ Params.exampleA with rxQueueCap := 0 } : Params).wf = false := by decide
theorem test_wf_rx_length : ({ Params.exampleA with rxMaxPayloadLen := 64 } : Params).wf = false := by decide
theorem test_wf_app_data : ({ Params.exampleA with maxAppData := 63 } : Params).wf = false := by decide
theorem test_wf_message : (message 0 0 0 0 (List.replicate 64 0)).wf = false := by decide
theorem test_wf_receivable :
    (message 0 0 0 0 (List.replicate 59 0)).receivable { Params.exampleA with rxMaxPayloadLen := 58 } = false := by decide
theorem test_wf_echo : (Instr.echoFrame (message 1 0 0 0 [])).wf Params.exampleA = false := by decide
theorem test_wf_ack_own : (Instr.ackFrame (message 0 0 1 0 [])).wf Params.exampleA = false := by decide
theorem test_wf_ack_bit : (Instr.ackFrame (message 1 0 0 0 [])).wf Params.exampleA = false := by decide
theorem test_wf_reset_own : (Instr.resetFrame (message 0 1 0 0 [])).wf Params.exampleA = false := by decide
theorem test_wf_reset_ack : (Instr.resetFrame (message 1 1 1 0 [])).wf Params.exampleA = false := by decide
theorem test_wf_reset_bit : (Instr.resetFrame (message 1 0 0 0 [])).wf Params.exampleA = false := by decide
theorem test_wf_data_own : (Instr.dataFrame (message 0 0 0 0 [])).wf Params.exampleA = false := by decide
theorem test_wf_data_ack : (Instr.dataFrame (message 1 0 1 0 [])).wf Params.exampleA = false := by decide
theorem test_wf_data_reset : (Instr.dataFrame (message 1 1 0 0 [])).wf Params.exampleA = false := by decide
theorem test_wf_data_long : (Instr.dataFrame (message 1 0 0 0 (List.replicate 64 0))).wf Params.exampleA = false := by
  decide
theorem test_wf_checksum : (Instr.checksum [0xEC, 0, 0, 0]).wf Params.exampleA = false := by decide
theorem test_wf_checksum_ok_short : (Instr.checksumOk [0xEC, 0, 0, 0]).wf Params.exampleA = false := by decide
theorem test_wf_checksum_ok_length : (Instr.checksumOk [0xEC, 1, 0, 0, 0]).wf Params.exampleA = false := by decide
theorem test_wf_encode : (Instr.encode (message 0 0 0 0 (List.replicate 64 0))).wf Params.exampleA = false := by decide
theorem test_wf_decode : (Instr.decode [0x11]).wf Params.exampleA = false := by decide
theorem test_instantiate_refuses :
    instantiate { Params.exampleA with rxQueueCap := 0 } = .refused .illFormedInstance := rfl
theorem test_system_refuses_equal_ids :
    System.instantiate Params.exampleA Params.exampleA false = .refused .equalIdentities := rfl

/-! ### Words written out from the encoding decode (30_encoding.md R70, R72, R79) -/

/-- C-17: bitfield `00000 1 0 1`, sender 1 is B's own. -/
theorem test_decode_echo :
    decodeInstr Params.exampleB [0xEC, 0x00, 0xF1, 0x00, 0b00000101] = .ok (.echoFrame (message 1 0 1 0 [])) := by decide
/-- C-25: bitfield `01001 1 1 1`, an ack although the reset bit is set. -/
theorem test_decode_ack :
    decodeInstr Params.exampleA [0xEC, 0x00, 0x3B, 0x01, 0b01001111] = .ok (.ackFrame (message 1 1 1 9 [])) := by decide
/-- C-18: bitfield `00000 0 1 0`. -/
theorem test_decode_reset :
    decodeInstr Params.exampleB [0xEC, 0x00, 0xEE, 0x00, 0b00000010] = .ok (.resetFrame (message 0 1 0 0 [])) := by decide
/-- C-24: bitfield `11111 0 0 0`, with the carry folded. -/
theorem test_decode_data :
    decodeInstr Params.exampleB [0xEC, 0x04, 0xE4, 0x05, 0b11111000, 0xFF, 0xFF, 0xFF, 0xFF] =
      .ok (.dataFrame (message 0 0 0 31 [0xFF, 0xFF, 0xFF, 0xFF])) := by decide
theorem test_decode_not_magic : decodeInstr Params.exampleB [0x11, 0xEC] = .ok .notMagic := by decide
theorem test_decode_incomplete_header : decodeInstr Params.exampleB [0xEC, 0x50, 0xEC, 0x00] = .ok .incompleteHeader := by
  decide
/-- R-4: 0x40 = 64 > 63. -/
theorem test_decode_bad_len : decodeInstr Params.exampleB [0xEC, 0x40, 0x00, 0x00, 0x00] = .ok .badLen := by decide
/-- R-7. -/
theorem test_decode_incomplete_frame :
    decodeInstr Params.exampleB [0xEC, 0x04, 0xFA, 0x10, 0x00, 0x05, 0x06] = .ok .incompleteFrame := by decide
/-- R-6: the checksum is 0x00EC. -/
theorem test_decode_bad_csum : decodeInstr Params.exampleB [0xEC, 0x00, 0x00, 0x00, 0x00] = .ok .badCsum := by decide
theorem test_decode_nothing : decodeInstr Params.exampleB [] = .error .noByte := by decide

/-- C-23: `MAGIC` inside the payload. -/
theorem test_encode_magic_in_payload :
    encodeFrame Params.exampleA (message 0 0 0 3 [0xEC, 0xEC]) = [0xEC, 0x02, 0xF0, 0xEF, 0x18, 0xEC, 0xEC] := by decide
/-- C-26: the longest frame. -/
theorem test_encode_longest :
    encodeFrame Params.exampleB (message 1 0 0 7 (List.replicate 63 0xFF)) =
      [0xEC, 0x3F, 0x26, 0x3F, 0x39] ++ List.replicate 63 0xFF := by decide

/-- The four frame rows of the opcode table at `LOCAL_ID = 0`: bitfield 0x00, 0x05, 0x03, 0x01. -/
theorem test_table_words :
    decodeTableWord 8 0x00 = some (.echoFrame (message 0 0 0 0 [])) ∧
    decodeTableWord 8 0x05 = some (.ackFrame (message 1 0 1 0 [])) ∧
    decodeTableWord 8 0x03 = some (.resetFrame (message 1 1 0 0 [])) ∧
    decodeTableWord 8 0x01 = some (.dataFrame (message 1 0 0 0 [])) := by decide
/-- A placed word runs as the first instruction after reset: an ack frame with id 1 is recorded. -/
theorem test_placed_word_runs :
    (linkOf (step (State.reset.withFetchWord 8 0x0D))).map Link.peerAck = some (some 1) := by decide

/-! ### One step each -/

/-- R-12: an echoed ack changes nothing but `rx_bytes`. -/
theorem test_echo :
    linkOf (exec (.rxByte 0x05) (linkB fun l => { l with rxBytes := [0xEC, 0x00, 0xF1, 0x00] })) =
      some { Link.powerOn with enabled := true } := by decide
/-- R-14. -/
theorem test_ack :
    linkOf (exec (.rxByte 0x05) (linkA fun l => { l with rxBytes := [0xEC, 0x00, 0xF1, 0x00] })) =
      some { Link.powerOn with enabled := true, peerAck := some 0 } := by decide
/-- R-17: a link reset cuts off a frame in flight. -/
theorem test_reset :
    linkOf (exec (.rxByte 0x02) (linkB fun l => { l with
      rxBytes := [0xEC, 0x00, 0xEE, 0x00], pending := some (message 1 0 0 0 [9, 1])
      txBytes := [0xEE, 0x0B, 0x01, 0x09, 0x01], nextMsgId := 1, stAckDropped := true })) =
      some { Link.powerOn with enabled := true, stAckDropped := true } := by decide
/-- R-8. -/
theorem test_data_novel :
    linkOf (exec (.rxByte 0x08) (linkB fun l => { l with rxBytes := frame0.dropLast })) =
      some { Link.powerOn with
        enabled := true, lastReceivedId := some 0, rxQueue := [m0], txBytes := [0xEC, 0x00, 0xF1, 0x00, 0x05] } := by decide
/-- R-9: a duplicate is acked again and not queued. -/
theorem test_data_duplicate :
    linkOf (exec (.rxByte 0x08) (linkB fun l => { l with rxBytes := frame0.dropLast, lastReceivedId := some 0 })) =
      some { Link.powerOn with
        enabled := true, lastReceivedId := some 0, txBytes := [0xEC, 0x00, 0xF1, 0x00, 0x05] } := by decide
/-- R-3: BADLEN, then `find_header` drops 0x50. -/
theorem test_bad_len :
    linkOf (exec (.rxByte 0x00) (linkB fun l => { l with rxBytes := [0xEC, 0x50, 0xEC, 0x00] })) =
      some { Link.powerOn with enabled := true, rxBytes := [0xEC, 0x00, 0x00] } := by decide
/-- R-6: BADCSUM, then four bytes dropped. -/
theorem test_bad_csum :
    linkOf (exec (.rxByte 0x00) (linkB fun l => { l with rxBytes := [0xEC, 0x00, 0x00, 0x00] })) =
      some { Link.powerOn with enabled := true } := by decide
/-- R-2, the last byte. -/
theorem test_incomplete_header :
    linkOf (exec (.rxByte 0x50) (linkB fun l => { l with rxBytes := [0xEC] })) =
      some { Link.powerOn with enabled := true, rxBytes := [0xEC, 0x50] } := by decide
/-- S-8: the id wraps. -/
theorem test_send_wraps_id :
    linkOf (exec (.send 1 []) (linkA fun l => { l with nextMsgId := 31 })) =
      some { Link.powerOn with enabled := true, txQueue := [message 0 0 0 31 [1]] } := by decide
/-- S-6: too long is checked before queue full. -/
theorem test_send_too_long_first :
    outOf (exec (.send 4 (List.replicate 63 0)) (linkA fun l => { l with txQueue := List.replicate 4 m0 })) =
      some (.result .errTooLong) := by decide
/-- T-2, T-3: an opportunity emits the head byte, a timer does not. -/
theorem test_drain :
    outOf (exec (.txOpp 0 true) (linkA fun l => { l with txBytes := frame0 })) = some (.emitted (some 0xEC)) ∧
    linkOf (exec (.timer 0) (linkA fun l => { l with txBytes := frame0 })) =
      some { Link.powerOn with enabled := true, txBytes := frame0 } := by decide
/-- T-9: `peer_ack` and `retry_count` stay. -/
theorem test_acked :
    linkOf (exec (.txOpp 10 true) (linkA fun l => { l with pending := some m0, peerAck := some 0, retryCount := 3 })) =
      some { Link.powerOn with enabled := true, peerAck := some 0, retryCount := 3 } := by decide
/-- T-1. -/
theorem test_start :
    linkOf (exec (.txOpp 0 true) (linkA fun l => { l with txQueue := [m0] })) =
      some { Link.powerOn with enabled := true, pending := some m0, txBytes := frame0 } := by decide
/-- T-16: the elapsed time wraps; T-6: one microsecond early is a wait. -/
theorem test_retry_wraps :
    (linkOf (exec (.timer 1500) (linkA fun l => { l with pending := some m0, lastSendTime := 0 - 1000 }))).map
      Link.retryCount = some 1 ∧
    (linkOf (exec (.timer 2499) (linkA fun l => { l with pending := some m0 }))).map Link.wakeDeadline =
      some (some 2500) := by decide
/-- T-12, T-13: exhaustion queues a reset frame unless the message was one. -/
theorem test_exhaust :
    linkOf (exec (.timer 27500) (linkA fun l => { l with
      pending := some m0, retryCount := 10, lastSendTime := 25000, txQueue := [m0] })) =
      some { Link.powerOn with enabled := true, txQueue := [message 0 1 0 0 []] } ∧
    linkOf (exec (.timer 55000) (linkA fun l => { l with
      pending := some (message 0 1 0 0 []), retryCount := 10, lastSendTime := 52500 })) =
      some { Link.powerOn with enabled := true } := by decide
/-- K-2: `ENABLE` resets and clears the flags. -/
theorem test_enable :
    linkOf (exec .enable (linkA fun l => { l with stRxqDropped := true, pending := some m0, nextMsgId := 5 })) =
      some { Link.powerOn with enabled := true } := by decide
/-- R-22. -/
theorem test_rx_pop :
    outOf (exec .rxPop (linkB fun l => { l with rxQueue := [m0] })) = some (.popped (some m0)) := by decide
/-- C-3: the carry is folded. -/
theorem test_checksum_fold :
    outOf (exec (.checksum [0xEC, 0x04, 0, 0, 0xF8, 0xFF, 0xFF, 0xFF, 0xFF]) (linkA id)) = some (.half 0x05E4) := by decide
/-- C-10: a two-byte change that escapes. -/
theorem test_checksum_escape :
    outOf (exec (.checksumOk [0xEC, 0x04, 0xFA, 0x09, 0x08, 0xFF, 0xFF, 0x05, 0x06]) (linkA id)) = some (.truth true) := by
  decide
/-- C-13, C-14. -/
theorem test_bitfield :
    outOf (exec (.packBitfield 1 1 1 9) (linkA id)) = some (.byte 0x4F) ∧
    outOf (exec (.unpackBitfield 0x4F) (linkA id)) = some (.bits 1 1 1 9) := by decide
/-- 41_receive.md R142. -/
theorem test_callback_split : callbackArguments m0 = some (5, [6, 7, 8]) ∧ callbackArguments (message 0 0 0 4 []) = none := by
  decide
/-- The bytes on the wire towards A and towards B, if there is a next state. -/
def wiresOf (o : Host.Outcome System Fault Refusal) : Option (List Byte × List Byte) :=
  match o with
  | .next y => some (y.toA, y.toB)
  | .fault _ => none
  | .refused _ => none

/-- P5, one byte of it: with echo an emitted byte goes towards both ends. -/
theorem test_system_echo :
    wiresOf (System.step (.act .a (.txOpp 0 true))
      { a := linkA fun l => { l with txBytes := [0xEC] }, b := linkB id, wireEcho := true, toA := [], toB := [] }) =
      some ([0xEC], [0xEC]) := by decide

/-- 60_exceptions.md R214: a byte nobody sent reaches A over an empty wire. -/
theorem test_system_insert :
    wiresOf (System.step (.insertByte .a 0xEC)
      { a := linkA id, b := linkB id, wireEcho := true, toA := [], toB := [] }) = some ([], []) := by decide

/-- 60_exceptions.md R211 item 2: a data frame and a reset frame in one scan, behind a false frame start that the last byte
completes and its checksum rejects. The ack is pushed, and `tx_bytes` is empty after the event. -/
theorem test_ack_pushed_then_cleared :
    Event.pushesAck (linkB fun l => { l with
      rxBytes := [0xEC, 0x0B, 0, 0, 0, 0xEC, 0x01, 0xEC, 0x02, 0x00, 0x01, 0xEC, 0x00, 0xEE, 0x00] }) (.rxByte 0x02) =
      true ∧
    (linkOf (exec (.rxByte 0x02) (linkB fun l => { l with
      rxBytes := [0xEC, 0x0B, 0, 0, 0, 0xEC, 0x01, 0xEC, 0x02, 0x00, 0x01, 0xEC, 0x00, 0xEE, 0x00] }))) =
      some { Link.powerOn with enabled := true } := by decide

/-- 20_memory.md R54. -/
theorem test_queue_head : qHead [m0, message 0 0 0 1 []] = some m0 ∧ qHead [] = none := by decide

/-! ### Witnesses: the hypotheses of each statement are met, each clause at the ends of its range

Frames for B (`LOCAL_ID = 1`), with the checksums of 95_test_vectors.md: an ack, a reset and a data frame from A, and
an echo of B's own ack. -/

def ackB : Message := message 0 0 1 9 []
def resetB : Message := message 0 1 0 0 []
def echoB : Message := message 1 0 1 0 []
def longB : Message := message 0 0 0 31 (List.replicate 63 0xFF)

/-- The operand with only zeros, and the largest word sum of 68 bytes. -/
theorem witness_AccumulatorBoundAndClosedForm :
    ([] : List Byte).length ≤ 68 ∧ wordTotal (zeroChecksum []) = 0 ∧
    (List.replicate 68 (0xFF : Byte)).length ≤ 68 ∧ 0 < wordTotal (zeroChecksum (List.replicate 68 0xFF)) := by decide

theorem witness_ChecksumAnswersFoldedWordSum :
    headerLen ≤ (List.replicate 5 (0 : Byte)).length ∧ (List.replicate 68 (0xFF : Byte)).length ≤ 68 := by decide

theorem witness_ChecksumOkComparesStoredField :
    ([0xEC, 0, 0, 0, 0] : List Byte).length = headerLen + (byteAt [0xEC, 0, 0, 0, 0] 1).toNat ∧
    frame0.length = headerLen + (byteAt frame0 1).toNat := by decide

theorem witness_EncodeWritesHeaderThenPayload :
    (message 0 0 0 0 []).payload.length ≤ maxPayloadLen ∧ longB.payload.length ≤ maxPayloadLen := by decide

/-- A header one byte short, a frame one byte short, a whole frame, an encoded frame with bytes after it. -/
theorem witness_DecodeReadsFieldsOrIsIncomplete :
    (frame0.take 4).head? = some (linkB id).params.magic ∧ (frame0.take 4).length < headerLen ∧
    (frame0.take 8).head? = some (linkB id).params.magic ∧ headerLen ≤ (frame0.take 8).length ∧
    (frame0.take 8).length < headerLen + (byteAt (frame0.take 8) 1).toNat ∧
    frame0.head? = some (linkB id).params.magic ∧ headerLen + (byteAt frame0 1).toNat ≤ frame0.length ∧
    m0.payload.length ≤ maxPayloadLen ∧ frame0 ++ [1] = encodeFrame (linkB id).params m0 ++ [1] := by decide

/-- The first and the last offset of the single-byte clause, and a changed first byte. -/
theorem witness_CodecLawsAndSingleByteDetection :
    m0.payload.length ≤ maxPayloadLen ∧ decodeFrame (encodeFrame Params.exampleB m0) = .frame m0 9 ∧
    2 ≤ 2 ∧ (0 : Byte) ≠ byteAt (encodeFrame Params.exampleB m0) 2 ∧
    8 < 5 + m0.payload.length ∧ (0 : Byte) ≠ byteAt (encodeFrame Params.exampleB m0) 8 ∧
    (0 : Byte) ≠ Params.exampleB.magic := by decide

theorem witness_FrameInstructionsDecodeFromTheirBytes :
    ((Instr.echoFrame echoB).wf Params.exampleB = true ∧
      encodeInstr Params.exampleB (.echoFrame echoB) = some [0xEC, 0x00, 0xF1, 0x00, 0x05]) ∧
    ((Instr.ackFrame ackB).wf Params.exampleB = true ∧
      encodeInstr Params.exampleB (.ackFrame ackB) = some [0xEC, 0x00, 0x38, 0x01, 0x4C]) ∧
    ((Instr.resetFrame resetB).wf Params.exampleB = true ∧
      encodeInstr Params.exampleB (.resetFrame resetB) = some [0xEC, 0x00, 0xEE, 0x00, 0x02]) ∧
    ((Instr.dataFrame m0).wf Params.exampleB = true ∧
      encodeInstr Params.exampleB (.dataFrame m0) = some frame0) := by decide

/-- The message the statement names is the one the bytes hold. -/
theorem witness_EveryHeadIsClassified :
    m0 = { sender := (byteAt frame0 4).extractLsb' 0 1
           reset := (byteAt frame0 4).extractLsb' 1 1
           ack := (byteAt frame0 4).extractLsb' 2 1
           msgId := (byteAt frame0 4).extractLsb' 3 5
           payload := (frame0.drop headerLen).take (byteAt frame0 1).toNat } := by decide

theorem witness_DecisionsStandUnderMoreBytes :
    decodeInstr Params.exampleB frame0 = .ok (.dataFrame m0) ∧
    Instr.dataFrame m0 ≠ .incompleteHeader ∧ Instr.dataFrame m0 ≠ .incompleteFrame := by decide

theorem witness_EchoIsOnlyConsumed :
    echoB.receivable Params.exampleB = true ∧ echoB.sender = Params.exampleB.localId ∧
    (linkB fun l => { l with rxBytes := [0xEC, 0x00, 0xF1, 0x00, 0x05, 7] }).link.rxBytes =
      encodeFrame Params.exampleB echoB ++ [7] := by decide

/-- With the reset bit clear and set. -/
theorem witness_AckFrameRecordsItsId :
    ackB.receivable Params.exampleB = true ∧ ackB.sender ≠ Params.exampleB.localId ∧ ackB.ack = 1 ∧
    (linkB fun l => { l with rxBytes := [0xEC, 0x00, 0x38, 0x01, 0x4C] }).link.rxBytes =
      encodeFrame Params.exampleB ackB ++ [] ∧
    (message 0 1 1 9 []).receivable Params.exampleB = true ∧ (message 0 1 1 9 []).ack = 1 ∧
    (linkB fun l => { l with rxBytes := [0xEC, 0x00, 0x3A, 0x01, 0x4E, 7] }).link.rxBytes =
      encodeFrame Params.exampleB (message 0 1 1 9 []) ++ [7] := by decide

theorem witness_ResetFrameResetsAndStops :
    resetB.receivable Params.exampleB = true ∧ resetB.sender ≠ Params.exampleB.localId ∧ resetB.ack = 0 ∧
    resetB.reset = 1 ∧
    (linkB fun l => { l with rxBytes := [0xEC, 0x00, 0xEE, 0x00, 0x02, 7] }).link.rxBytes =
      encodeFrame Params.exampleB resetB ++ [7] := by decide

theorem witness_DataFrameIsAckedAndQueued :
    (Instr.dataFrame m0).wf Params.exampleB = true ∧
    (linkB fun l => { l with rxBytes := frame0 ++ [7] }).link.rxBytes = encodeFrame Params.exampleB m0 ++ [7] ∧
    [0xEC, 0x00, 0xF1, 0x00, 0x05] =
      encodeFrame Params.exampleB { sender := Params.exampleB.localId, reset := 0, ack := 1, msgId := m0.msgId, payload := [] } := by
  decide

/-- A head that stops the scan, a reset frame, and one after which it goes on. -/
theorem witness_ScanRunsTheDecodedInstruction :
    decodeInstr Params.exampleB (linkB fun l => { l with rxBytes := [0xEC] }).link.rxBytes = .ok .incompleteHeader ∧
    decodeInstr Params.exampleB (linkB fun l => { l with rxBytes := frame0.take 8 }).link.rxBytes = .ok .incompleteFrame ∧
    decodeInstr Params.exampleB (linkB fun l => { l with rxBytes := [0xEC, 0x00, 0xEE, 0x00, 0x02] }).link.rxBytes =
      .ok (.resetFrame resetB) ∧
    decodeInstr Params.exampleB (linkB fun l => { l with rxBytes := frame0 }).link.rxBytes = .ok (.dataFrame m0) := by
  decide

theorem witness_ScanIsThePseudocode : (linkB fun l => { l with rxBytes := frame0 }).link.rxBytes.length + 1 ≤ 10 := by
  decide

/-- B with a receive ring of three bytes, holding `rx`. -/
def smallB (rx : List Byte) : State :=
  { linkB (fun l => { l with rxBytes := rx }) with params := { Params.exampleB with rxBytesCap := 3 } }

/-- Not enabled; room for one byte more; no room. -/
theorem witness_RxBytePushesThenScans :
    (State.powerOn Params.exampleB).link.enabled = false ∧
    (smallB [1, 2]).link.enabled = true ∧ (smallB [1, 2]).link.rxBytes.length < (smallB [1, 2]).params.rxBytesCap ∧
    (smallB [1, 2, 3]).link.enabled = true ∧
    (smallB [1, 2, 3]).params.rxBytesCap ≤ (smallB [1, 2, 3]).link.rxBytes.length := by decide

theorem witness_LastByteRunsTheFrame :
    (linkB fun l => { l with rxBytes := frame0.take 8 }).link.enabled = true ∧
    m0.receivable Params.exampleB = true ∧ 5 + m0.payload.length ≤ Params.exampleB.rxBytesCap ∧
    (linkB fun l => { l with rxBytes := frame0.take 8 }).link.rxBytes ++ [8] = encodeFrame Params.exampleB m0 := by decide

theorem witness_GarbageBeforeAFrameIsDiscarded :
    (linkB id).params.wf = true ∧ (linkB id).link.enabled = true ∧ (linkB id).link.rxBytes = [] ∧
    (∀ b ∈ [(1 : Byte), 2], b ≠ (linkB id).params.magic) ∧ (Instr.dataFrame m0).wf (linkB id).params = true := by decide

theorem witness_DuplicateIsAckedButNotDelivered :
    (linkB id).params.wf = true ∧ (linkB id).link.enabled = true ∧ (linkB id).link.rxBytes = [] ∧
    (Instr.dataFrame m0).wf (linkB id).params = true ∧
    [0xEC, 0x00, 0xF1, 0x00, 0x05] = encodeFrame (linkB id).params
      { sender := (linkB id).params.localId, reset := 0, ack := 1, msgId := m0.msgId, payload := [] } ∧
    (linkB id).link.lastReceivedId ≠ some m0.msgId ∧ (linkB id).link.rxQueue.length < (linkB id).params.rxQueueCap ∧
    (linkB id).link.txBytes.length + 10 ≤ (linkB id).params.txBytesCap := by decide

theorem witness_RxPopReturnsTheOldest :
    (linkB fun l => { l with rxQueue := [m0] }).link.rxQueue = [m0] ∧ (linkB id).link.rxQueue = [] := by decide

/-- A byte that gives a next state. -/
theorem witness_RxByteFrame :
    exec (.rxByte 0xEC) (linkB id) = .next { linkB (fun l => { l with rxBytes := [0xEC] }) with labels := [.wait] } := rfl

/-- Disabled; one byte too long; the queue just full; the longest data and the last free place. -/
theorem witness_SendQueuesOrReportsAnError :
    (State.powerOn Params.exampleB).link.enabled = false ∧ (linkA id).link.enabled = true ∧
    (linkA id).params.maxAppData < (List.replicate 63 (0 : Byte)).length ∧
    (List.replicate 62 (0 : Byte)).length ≤ (linkA id).params.maxAppData ∧
    (linkA fun l => { l with txQueue := List.replicate 4 m0 }).link.txQueue.length = (linkA id).params.txQueueCap ∧
    (linkA fun l => { l with txQueue := List.replicate 3 m0 }).link.txQueue.length < (linkA id).params.txQueueCap := by decide

theorem witness_DrainMovesOneByteWhenReady :
    (linkA fun l => { l with txBytes := [1] }).link.enabled = true ∧
    (linkA fun l => { l with txBytes := [1] }).link.txBytes = 1 :: [] := by decide

/-- A with `m0` in flight, sent at time 0, `n` retries made, the peer's last ack as given. -/
def inFlight (n : Nat) (peerAck : Option MsgId) : State :=
  linkA fun l => { l with pending := some m0, retryCount := n, peerAck := peerAck }

theorem witness_AckedClearsOnlyPending :
    (inFlight 3 (some 0)).link.enabled = true ∧ (inFlight 3 (some 0)).link.txBytes = [] ∧
    (inFlight 3 (some 0)).link.pending = some m0 ∧ (inFlight 3 (some 0)).link.peerAck = some m0.msgId := by decide

theorem witness_StartSendsTheOldestMessage :
    (linkA fun l => { l with txQueue := [m0] }).link.enabled = true ∧
    (linkA fun l => { l with txQueue := [m0] }).link.txBytes = [] ∧
    (linkA fun l => { l with txQueue := [m0] }).link.pending = none ∧
    (linkA fun l => { l with txQueue := [m0] }).link.txQueue = m0 :: [] ∧
    5 + m0.payload.length ≤ (linkA id).params.txBytesCap := by decide

/-- The tenth retry, exactly due. -/
theorem witness_RetryResendsThePendingFrame :
    (inFlight 9 (some 1)).link.enabled = true ∧ (inFlight 9 (some 1)).link.txBytes = [] ∧
    (inFlight 9 (some 1)).link.pending = some m0 ∧ (inFlight 9 (some 1)).link.peerAck ≠ some m0.msgId ∧
    (inFlight 9 (some 1)).params.retryIntervalUs ≤ ((2500 : Timestamp) - (inFlight 9 (some 1)).link.lastSendTime).toNat ∧
    (inFlight 9 (some 1)).link.retryCount < (inFlight 9 (some 1)).params.maxRetries ∧
    5 + m0.payload.length ≤ (inFlight 9 (some 1)).params.txBytesCap := by decide

theorem witness_ExhaustionResetsAndAnnounces :
    (inFlight 10 none).link.enabled = true ∧ (inFlight 10 none).link.txBytes = [] ∧
    (inFlight 10 none).link.pending = some m0 ∧ (inFlight 10 none).link.peerAck ≠ some m0.msgId ∧
    (inFlight 10 none).params.retryIntervalUs ≤ ((2500 : Timestamp) - (inFlight 10 none).link.lastSendTime).toNat ∧
    (inFlight 10 none).params.maxRetries ≤ (inFlight 10 none).link.retryCount ∧
    1 ≤ (inFlight 10 none).params.txQueueCap ∧
    { Link.powerOn with enabled := true, txQueue := [message 0 1 0 0 []] } = { (inFlight 10 none).link with
      nextMsgId := 0, lastReceivedId := none, pending := none, retryCount := 0, lastSendTime := 0, peerAck := none
      txQueue := if m0.reset = 0 then
          [{ sender := (inFlight 10 none).params.localId, reset := 1, ack := 0, msgId := 0, payload := [] }] else []
      rxQueue := [], txBytes := [], rxBytes := [], wakeDeadline := none } := by decide

/-- Idle; one microsecond before the retry is due. -/
theorem witness_WaitRequestsTheNextDeadline :
    (linkA id).link.enabled = true ∧ (linkA id).link.txBytes = [] ∧ (linkA id).link.pending = none ∧
    (linkA id).link.txQueue = [] ∧
    (inFlight 0 none).link.enabled = true ∧ (inFlight 0 none).link.txBytes = [] ∧
    (inFlight 0 none).link.pending = some m0 ∧ (inFlight 0 none).link.peerAck ≠ some m0.msgId ∧
    ((2499 : Timestamp) - (inFlight 0 none).link.lastSendTime).toNat < (inFlight 0 none).params.retryIntervalUs := by decide

theorem witness_OneBranchActsPerOpportunity :
    (linkA id).link.enabled = true ∧ (State.powerOn Params.exampleA).link.enabled = false := by decide

theorem witness_OpportunityFrame :
    (Instr.timer 0 = .txOpp 0 true ∨ Instr.timer 0 = .timer 0) ∧
    exec (.timer 0) (linkA id) = .next { linkA id with labels := [.idleWait] } := ⟨.inr rfl, rfl⟩

theorem witness_PendingIsNeverReplaced :
    (inFlight 0 none).link.pending = some m0 ∧ exec .rxScan (inFlight 0 none) = .next (inFlight 0 none) := ⟨rfl, rfl⟩

/-- No retry, and all of them. -/
theorem witness_NoAckMeansMaxRetriesThenReset :
    (inFlight 0 none).link.enabled = true ∧ (inFlight 0 none).link.txBytes = [] ∧
    (inFlight 0 none).link.pending = some m0 ∧ (inFlight 0 none).link.peerAck ≠ some m0.msgId ∧
    (inFlight 0 none).link.retryCount = 0 ∧ (inFlight 0 none).params.retryIntervalUs < 2 ^ 64 ∧
    5 + m0.payload.length ≤ (inFlight 0 none).params.txBytesCap ∧ 1 ≤ (inFlight 0 none).params.txQueueCap ∧
    0 ≤ (inFlight 0 none).params.maxRetries ∧ 10 = (inFlight 0 none).params.maxRetries ∧
    ∃ r, r = (inFlight 0 none).runEvents
      (retryRounds (inFlight 0 none).params (5 + m0.payload.length) 10 (inFlight 0 none).link.lastSendTime) :=
  ⟨rfl, rfl, rfl, by decide, rfl, by decide, by decide, by decide, by decide, rfl, _, rfl⟩

theorem witness_LateTimerAfterResetIsHarmless :
    (linkA id).link.enabled = true ∧ 1 ≤ (linkA id).params.txQueueCap ∧ 5 ≤ (linkA id).params.txBytesCap := by decide

theorem witness_SendResetQueuesAResetFrame : 1 ≤ (linkA id).params.txQueueCap := by decide

/-- A state with the invariant before `ENABLE`. -/
theorem powerOn_inv (p : Params) (h : p.wf = true) : Inv (State.powerOn p) where
  params_wf := h
  retry_bound m hm := by simp [State.powerOn, Link.powerOn] at hm
  rx_waits := by simp [State.powerOn, Link.powerOn, waitsForBytes]
  payloads_wf m hm := by simp [State.powerOn, Link.powerOn] at hm
  sent_nonempty m hm := by simp [State.powerOn, Link.powerOn, applicationMessages] at hm
  ids_consecutive := rfl
  tx_bytes_fit := Nat.zero_le _
  rx_bytes_fit := Nat.zero_le _
  tx_queue_fits := Nat.zero_le _
  rx_queue_fits := Nat.zero_le _
  before_enable _ := rfl

/-- Not enabled, with the invariant; and an enabled link that takes a step. -/
theorem witness_DisabledLinkIsInert :
    Inv (State.powerOn Params.exampleB) ∧ (State.powerOn Params.exampleB).link.enabled = false ∧
    step (linkB id) = .next (linkB id) ∧ (linkB id).link.enabled = true :=
  ⟨powerOn_inv _ (by decide), rfl, rfl, rfl⟩

theorem witness_OnlyEnableClearsStickyFlags :
    Instr.rxScan ≠ .enable ∧
    exec .rxScan (linkB fun l => { l with stRxOverrun := true, stAckDropped := true, stRxqDropped := true }) =
      .next (linkB fun l => { l with stRxOverrun := true, stAckDropped := true, stRxqDropped := true }) ∧
    exec .enable (linkB fun l => { l with stRxOverrun := true }) = .next (linkB id) := ⟨by decide, rfl, rfl⟩

theorem witness_ParametersAreNeverWritten :
    exec .rxScan (linkB id) = .next (linkB id) ∧ Instr.rxScan ≠ .enable := ⟨rfl, by decide⟩

theorem witness_StepRunsTheNextEvent :
    ((linkB id).setEvents [.status]).events = .status :: [] ∧ (linkB id).events = [] := ⟨rfl, rfl⟩

/-- B with a frame half received and a message in flight, about to take an opportunity. -/
def busyB : State :=
  (linkB fun l => { l with
    pending := some (message 1 0 0 4 [9]), nextMsgId := 6, txQueue := [message 1 0 0 5 [1]], rxQueue := [m0]
    rxBytes := frame0.take 8, retryCount := 10, lastReceivedId := some 0 }).setEvents [.txOpp 7 true]

theorem witness_StepKeepsTheInvariant :
    Inv busyB ∧ ∃ t, step busyB = .next t ∧ t.link.wakeDeadline = some 2500 :=
  ⟨{ params_wf := by decide
     retry_bound := fun _ _ => by decide
     rx_waits := by decide
     payloads_wf := by decide
     sent_nonempty := by decide
     ids_consecutive := by decide
     tx_bytes_fit := by decide
     rx_bytes_fit := by decide
     tx_queue_fits := by decide
     rx_queue_fits := by decide
     before_enable := fun h => absurd h (by decide) }, _, rfl, rfl⟩

theorem witness_PowerOnHasTheInvariant : Params.exampleB.wf = true := by decide

/-- All conditions under which an instantiation is accepted. -/
def meetsConstraints (p : Params) : Bool :=
  decide (5 + p.rxMaxPayloadLen ≤ p.rxBytesCap) && decide (5 + p.rxMaxPayloadLen ≤ p.txBytesCap) &&
  decide (1 ≤ p.txQueueCap) && decide (1 ≤ p.rxQueueCap) && decide (p.rxMaxPayloadLen ≤ 63) &&
  decide (p.maxAppData ≤ 62) && decide (6 + p.maxAppData ≤ p.txBytesCap)

/-- Each constraint just broken, and all just met, with the source's lengths and with
`payload_len ≤ 58`, the other reading of 90_conflicts.md C2. -/
theorem witness_InstantiationRefusesSmallBuffers :
    ({ Params.exampleA with rxBytesCap := 67 } : Params).rxBytesCap < 5 + Params.exampleA.rxMaxPayloadLen ∧
    ({ Params.exampleA with txBytesCap := 67 } : Params).txBytesCap < 5 + Params.exampleA.rxMaxPayloadLen ∧
    ({ Params.exampleA with txQueueCap := 0 } : Params).txQueueCap < 1 ∧
    ({ Params.exampleA with rxQueueCap := 0 } : Params).rxQueueCap < 1 ∧
    63 < ({ Params.exampleA with rxMaxPayloadLen := 64 } : Params).rxMaxPayloadLen ∧
    62 < ({ Params.exampleA with maxAppData := 63 } : Params).maxAppData ∧
    ({ Params.exampleA with txBytesCap := 67 } : Params).txBytesCap < 6 + Params.exampleA.maxAppData ∧
    meetsConstraints { Params.exampleA with rxBytesCap := 68, txBytesCap := 68, txQueueCap := 1, rxQueueCap := 1 } = true ∧
    meetsConstraints { Params.exampleA with
      rxMaxPayloadLen := 58, maxAppData := 57, rxBytesCap := 63, txBytesCap := 63 } = true := by decide

theorem witness_QuiescentLinkStaysPut :
    (linkA id).link.quiescent = true ∧ (∀ b, Event.status ≠ .rxByte b) ∧ (∀ cmd data, Event.status ≠ .send cmd data) ∧
    Event.status ≠ .enable := by simp [linkA, Link.quiescent, Link.powerOn]

/-- A fair run: one byte to send, then idle, an opportunity at every step. -/
def drainRun : Nat → State
  | 0 => linkA fun l => { l with txBytes := [1] }
  | 1 => { linkA id with out := .emitted (some 1), labels := [.txb 1] }
  | _ + 2 => { linkA id with out := .emitted none, labels := [.idleWait] }

theorem drainRun_no_wake (n : Nat) : (drainRun n).link.wakeDeadline = none ∧ (drainRun n).link.rxQueue = [] := by
  match n with
  | 0 => exact ⟨rfl, rfl⟩
  | 1 => exact ⟨rfl, rfl⟩
  | _ + 2 => exact ⟨rfl, rfl⟩

theorem witness_FairUartDrainsTheRing :
    IsRun drainRun (fun _ => .txOpp 0 true) ∧ Fair drainRun (fun _ => .txOpp 0 true) ∧
    (drainRun 0).link.enabled = true ∧
    ∀ k, 0 ≤ k → (∀ b, Event.txOpp 0 true ≠ .rxByte b) ∧ Event.txOpp 0 true ≠ .enable := by
  refine ⟨fun n => ?_, ⟨fun n _ => ⟨n, Nat.le_refl n, 0, rfl⟩, fun n _ => ⟨n + 1, Nat.lt_succ_self n, rfl⟩, ?_, ?_⟩, rfl, ?_⟩
  · match n with
    | 0 => rfl
    | 1 => rfl
    | _ + 2 => rfl
  · intro n d h
    rw [(drainRun_no_wake n).1] at h
    cases h
  · intro n h
    exact absurd (drainRun_no_wake n).2 h
  · intro k _
    constructor
    · intro b h
      cases h
    · intro h
      cases h

def wired : System := { a := linkA id, b := linkB id, wireEcho := false, toA := [], toB := [0xEC, 0] }

theorem witness_WireStepsActOnTheReceiverOnly : wired.wire .b = 0xEC :: [0] ∧ wired.wire .a = [] := ⟨rfl, rfl⟩

theorem witness_EqualIdentitiesHearOnlyEchoes :
    Params.exampleA.magic = Params.exampleA.magic ∧ Params.exampleA.localId = Params.exampleA.localId ∧
    m0.sender = Params.exampleA.localId ∧ m0.receivable Params.exampleA = true ∧ Params.exampleA.wf = true := by decide

/-- The longest data. -/
theorem witness_OneMessageGoesRoundTheLink :
    (linkA id).params.wf = true ∧ (linkB id).params.wf = true ∧ (linkA id).params.magic = (linkB id).params.magic ∧
    (linkA id).params.localId ≠ (linkB id).params.localId ∧
    (List.replicate 62 (0 : Byte)).length ≤ (linkA id).params.maxAppData ∧
    1 + (List.replicate 62 (0 : Byte)).length ≤ (linkB id).params.rxMaxPayloadLen ∧
    (linkA id).link.enabled = true ∧ (linkA id).link.txBytes = [] ∧ (linkA id).link.rxBytes = [] ∧
    (linkA id).link.pending = none ∧ (linkA id).link.txQueue = [] ∧ (linkB id).link.enabled = true ∧
    (linkB id).link.txBytes = [] ∧ (linkB id).link.rxBytes = [] ∧
    (linkB id).link.rxQueue.length < (linkB id).params.rxQueueCap ∧
    (linkB id).link.lastReceivedId ≠ some (linkA id).link.nextMsgId := by decide

end Sys2Proof.Tests
end

/-! PROOFS. The two-party system: what a system's updates read back, that every event completes, what the carrying of an
emitted byte does, and from these the event at one end (00_scope.md R7, 60_exceptions.md R214). -/

namespace Sys2Proof.Machine

/-! ### The system's updates, field by field -/

@[simp] theorem System.setLink_link_same (y : System) (who : Party) (s : State) : (y.setLink who s).link who = s := by
  cases who <;> rfl

@[simp] theorem System.setLink_link_other (y : System) (who : Party) (s : State) :
    (y.setLink who s).link who.other = y.link who.other := by
  cases who <;> rfl

@[simp] theorem System.setLink_wire (y : System) (who dest : Party) (s : State) :
    (y.setLink who s).wire dest = y.wire dest := by
  cases who <;> cases dest <;> rfl

@[simp] theorem System.setLink_wireEcho (y : System) (who : Party) (s : State) :
    (y.setLink who s).wireEcho = y.wireEcho := by
  cases who <;> rfl

@[simp] theorem System.setWire_link (y : System) (dest who : Party) (bytes : List Byte) :
    (y.setWire dest bytes).link who = y.link who := by
  cases dest <;> cases who <;> rfl

@[simp] theorem System.setWire_wire_same (y : System) (dest : Party) (bytes : List Byte) :
    (y.setWire dest bytes).wire dest = bytes := by
  cases dest <;> rfl

@[simp] theorem System.setWire_wire_other (y : System) (dest : Party) (bytes : List Byte) :
    (y.setWire dest bytes).wire dest.other = y.wire dest.other := by
  cases dest <;> rfl

@[simp] theorem System.setWire_other_wire (y : System) (dest : Party) (bytes : List Byte) :
    (y.setWire dest.other bytes).wire dest = y.wire dest := by
  cases dest <;> rfl

@[simp] theorem System.setWire_wireEcho (y : System) (dest : Party) (bytes : List Byte) :
    (y.setWire dest bytes).wireEcho = y.wireEcho := by
  cases dest <;> rfl

/-! ### Carrying an emitted byte -/

/-- Only the two wires can differ after carrying: nothing emitted, a byte without echo, or a byte with echo
(decision D35). -/
theorem System.carry_cases (who : Party) (emitted : Option Byte) (y : System) :
    (emitted = none ∧ y.carry who emitted = y) ∨
    (∃ b, emitted = some b ∧ y.wireEcho = false ∧
      y.carry who emitted = y.setWire who.other (y.wire who.other ++ [b])) ∨
    (∃ b, emitted = some b ∧ y.wireEcho = true ∧
      y.carry who emitted = (y.setWire who.other (y.wire who.other ++ [b])).setWire who (y.wire who ++ [b])) := by
  cases emitted with
  | none => exact .inl ⟨rfl, rfl⟩
  | some b =>
    cases h : y.wireEcho with
    | false => exact .inr (.inl ⟨b, rfl, rfl, by simp [System.carry, h]⟩)
    | true => exact .inr (.inr ⟨b, rfl, rfl, by simp [System.carry, h]⟩)

@[simp] theorem System.carry_link (who p : Party) (emitted : Option Byte) (y : System) :
    (y.carry who emitted).link p = y.link p := by
  rcases System.carry_cases who emitted y with ⟨-, h⟩ | ⟨b, -, -, h⟩ | ⟨b, -, -, h⟩ <;> simp [h]

@[simp] theorem System.carry_wireEcho (who : Party) (emitted : Option Byte) (y : System) :
    (y.carry who emitted).wireEcho = y.wireEcho := by
  rcases System.carry_cases who emitted y with ⟨-, h⟩ | ⟨b, -, -, h⟩ | ⟨b, -, -, h⟩ <;> simp [h]

/-- The byte is appended to the wire towards the other end, whatever the wire's kind. -/
theorem System.carry_wire_other (who : Party) (emitted : Option Byte) (y : System) :
    (y.carry who emitted).wire who.other = y.wire who.other ++ emitted.toList := by
  rcases System.carry_cases who emitted y with ⟨rfl, h⟩ | ⟨b, rfl, -, h⟩ | ⟨b, rfl, -, h⟩ <;> simp [h]

/-- The byte comes back to its emitter exactly with echo. -/
theorem System.carry_wire_same (who : Party) (emitted : Option Byte) (y : System) :
    (y.carry who emitted).wire who = y.wire who ++ (if y.wireEcho then emitted.toList else []) := by
  rcases System.carry_cases who emitted y with ⟨rfl, h⟩ | ⟨b, rfl, he, h⟩ | ⟨b, rfl, he, h⟩
  · simp [h]
  · simp [h, he]
  · simp [h, he]

/-! ### Every event completes (60_exceptions.md R205) -/

/-- `RX_BYTE` completes, on a disabled link too. -/
theorem execRxByte_completes (b : Byte) (s : State) : ∃ t, execRxByte b s = .next t := by
  simp only [execRxByte]
  split <;> exact ⟨_, rfl⟩

/-- `SEND` completes: each of its errors is an answer, not a fault. -/
theorem execSend_completes (cmd : Byte) (data : List Byte) (s : State) : ∃ t, execSend cmd data s = .next t := by
  unfold execSend
  split
  · exact ⟨_, rfl⟩
  · split
    · exact ⟨_, rfl⟩
    · split <;> exact ⟨_, rfl⟩

/-- `RX_POP` completes, on an empty queue too. -/
theorem execRxPop_completes (s : State) : ∃ t, execRxPop s = .next t := by
  unfold execRxPop
  split <;> exact ⟨_, rfl⟩

/-- Every event's instruction completes in every state. -/
theorem exec_event_completes (e : Event) (s : State) : ∃ t, exec e.toInstr s = .next t := by
  cases e with
  | rxByte b => exact execRxByte_completes b s
  | txOpp now uartReady => exact ⟨_, rfl⟩
  | timer now => exact ⟨_, rfl⟩
  | send cmd data => exact execSend_completes cmd data s
  | enable => exact ⟨_, rfl⟩
  | rxPop => exact execRxPop_completes s
  | status => exact ⟨_, rfl⟩

/-- A step runs the event at the head of the schedule (20_memory.md R61). -/
theorem step_setEvents_cons (e : Event) (rest : List Event) (s : State) :
    step (s.setEvents (e :: rest)) = exec e.toInstr ((s.setEvents (e :: rest)).beginEvent rest) := rfl

/-- A presented event's step completes. -/
theorem step_presented_completes (e : Event) (rest : List Event) (s : State) :
    ∃ t, step (s.setEvents (e :: rest)) = .next t := by
  rw [step_setEvents_cons]
  exact exec_event_completes e _

/-! ### An event at one end -/

/-- An event whose step at its own link gives `t` gives the system with that link at `t` and its byte carried. -/
theorem System.perform_eq {y : System} {who : Party} {e : Event} {t : State}
    (h : Machine.step ((y.link who).setEvents (e :: (y.link who).events)) = .next t) :
    y.perform who e = .next ((y.setLink who t).carry who t.emittedByte) := by
  simp [System.perform, h]

/-- Settles O56: the event's step completes, and the system's next state is that link replaced and its byte carried, read
field by field. -/
theorem eventAtOneEndLeavesTheOtherAlone : Obligations.EventAtOneEndLeavesTheOtherAlone := by
  intro y who e
  obtain ⟨t, ht⟩ := step_presented_completes e (y.link who).events (y.link who)
  have hlink : ((y.setLink who t).carry who t.emittedByte).link who = t := by simp
  refine ⟨(y.setLink who t).carry who t.emittedByte, System.perform_eq ht, ?_, ?_, ?_, ?_, ?_⟩
  · rw [hlink]
    exact ht
  · simp
  · simp
  · rw [hlink, System.carry_wire_other, System.setLink_wire]
  · rw [hlink, System.carry_wire_same, System.setLink_wire, System.setLink_wireEcho]

end Sys2Proof.Machine

/-! PROOFS. The state record (10_state.md): what no instruction writes (R32, R33), what a received byte and an opportunity
may change (R22), what the receive scan leaves (R36 item 3), and the invariant of R36, kept by every step. -/

namespace Sys2Proof

/-! ### What the head of `rx_bytes` says about the bytes (41_receive.md R130) -/

/-- On exactly the bytes its length field announces, `decode` answers a message with a payload of that length
(40_codec.md R106). -/
theorem decodeFrame_of_length {f : List Byte} (h : f.length = headerLen + (byteAt f 1).toNat) :
    ∃ m, decodeFrame f = .frame m f.length ∧ m.payload.length = (byteAt f 1).toNat := by
  have hheader : ¬ f.length < headerLen := by omega
  have hframe : ¬ f.length < headerLen + (byteAt f 1).toNat := by omega
  simp only [decodeFrame, hheader, hframe, if_false]
  refine ⟨_, by rw [h], ?_⟩
  simp only [List.length_take, List.length_drop]
  omega

/-- Once the announced bytes are all there, the head is a checksum error or a frame with a payload of the announced
length: never a wait (41_receive.md R134, R135). -/
theorem classify_complete {p : Params} {t : List Byte} (hmax : (byteAt t 0).toNat ≤ p.rxMaxPayloadLen)
    (hlen : 4 + (byteAt t 0).toNat ≤ t.length) :
    classify p (p.magic :: t) = some .badCsum ∨
    ∃ m, m.payload.length = (byteAt t 0).toNat ∧ classify p (p.magic :: t) = some (frameKind p m) := by
  have hfield : byteAt (p.magic :: t.take (4 + (byteAt t 0).toNat)) 1 = byteAt t 0 :=
    (byteAt_succ _ _ 0).trans (byteAt_take (by omega))
  obtain ⟨m, hm, hpayload⟩ := decodeFrame_of_length (f := p.magic :: t.take (4 + (byteAt t 0).toNat)) (by
    rw [hfield, List.length_cons, List.length_take, headerLen]
    omega)
  rw [classify_magic, if_neg (by omega), if_neg (by omega), if_neg (by omega), hm]
  split
  · exact .inr ⟨m, hfield ▸ hpayload, rfl⟩
  · exact .inl rfl

end Sys2Proof

namespace Sys2Proof.Machine

/-- Bytes that start with `MAGIC` wait for a header or for the frame it announces (10_state.md R36 item 3). -/
theorem waitsForBytes_magic {p : Params} {t : List Byte} :
    waitsForBytes p (p.magic :: t) = true ↔
      t.length < 4 ∨ (byteAt t 0).toNat ≤ p.rxMaxPayloadLen ∧ t.length < 4 + (byteAt t 0).toNat := by
  have hfield : byteAt (p.magic :: t) 1 = byteAt t 0 := rfl
  simp only [waitsForBytes, headerLen, hfield, reduceCtorEq, decide_false, Bool.false_or, List.head?_cons, decide_true,
    Bool.true_and, Bool.or_eq_true, Bool.and_eq_true, decide_eq_true_eq, List.length_cons]
  omega

/-- What each head says about the bytes it was read from: a discarded byte, bytes that wait for more, or a frame with a
payload the receiver accepts (41_receive.md R132 to R135). -/
theorem classify_some {p : Params} {rx : List Byte} {h : Head} (hc : classify p rx = some h) :
    (h = .notMagic ∨ h = .badLen ∨ h = .badCsum) ∨
    ((h = .incompleteHeader ∨ h = .incompleteFrame) ∧ waitsForBytes p rx = true) ∨
    (∃ m, m.payload.length ≤ p.rxMaxPayloadLen ∧ h = frameKind p m) := by
  cases rx with
  | nil => simp at hc
  | cons b t =>
    by_cases hb : b = p.magic
    · subst hb
      by_cases hheader : t.length < 4
      · rw [classify_magic, if_pos hheader] at hc
        cases hc
        exact .inr (.inl ⟨.inl rfl, waitsForBytes_magic.2 (.inl hheader)⟩)
      by_cases hmax : p.rxMaxPayloadLen < (byteAt t 0).toNat
      · rw [classify_magic, if_neg hheader, if_pos hmax] at hc
        cases hc
        exact .inl (.inr (.inl rfl))
      by_cases hframe : t.length < 4 + (byteAt t 0).toNat
      · rw [classify_magic, if_neg hheader, if_neg hmax, if_pos hframe] at hc
        cases hc
        exact .inr (.inl ⟨.inr rfl, waitsForBytes_magic.2 (.inr ⟨Nat.le_of_not_lt hmax, hframe⟩)⟩)
      rcases classify_complete (Nat.le_of_not_lt hmax) (Nat.le_of_not_lt hframe) with hbad | ⟨m, hm, hkind⟩
      · rw [hbad] at hc
        cases hc
        exact .inl (.inr (.inr rfl))
      · rw [hkind] at hc
        cases hc
        exact .inr (.inr ⟨m, by omega, rfl⟩)
    · rw [classify_notMagic hb] at hc
      cases hc
      exact .inl (.inl rfl)

/-- A frame's head is a data frame only of the message it carries. -/
theorem eq_of_frameKind_eq_data {p : Params} {m k : Message} (h : frameKind p k = .data m) : k = m := by
  rcases frameKind_cases p k with ⟨-, he⟩ | ⟨-, -, he⟩ | ⟨-, -, -, he⟩ | ⟨-, -, -, he⟩ <;> simp_all

/-- The heads that wait are no frames. -/
theorem frameKind_ne_wait (p : Params) (m : Message) :
    frameKind p m ≠ .incompleteHeader ∧ frameKind p m ≠ .incompleteFrame := by
  rcases frameKind_cases p m with ⟨-, he⟩ | ⟨-, -, he⟩ | ⟨-, -, -, he⟩ | ⟨-, -, -, he⟩ <;> simp [he]

/-- A head that is a data frame has a payload the receiver accepts (41_receive.md R133). -/
theorem payload_le_of_classify_data {p : Params} {rx : List Byte} {m : Message}
    (hc : classify p rx = some (.data m)) : m.payload.length ≤ p.rxMaxPayloadLen := by
  rcases classify_some hc with hd | ⟨hw, -⟩ | ⟨k, hk, he⟩
  · simp at hd
  · simp at hw
  · exact eq_of_frameKind_eq_data he.symm ▸ hk

/-- Where the scan stops without a link reset, the bytes wait for more (10_state.md R36 item 3). -/
theorem waitsForBytes_of_classify {p : Params} {rx : List Byte} {h : Head} (hc : classify p rx = some h)
    (hwait : h = .incompleteHeader ∨ h = .incompleteFrame) : waitsForBytes p rx = true := by
  rcases classify_some hc with hd | ⟨-, hw⟩ | ⟨m, -, rfl⟩
  · rcases hwait with rfl | rfl <;> simp at hd
  · exact hw
  · exact (hwait.elim (frameKind_ne_wait p m).1 (frameKind_ne_wait p m).2).elim

/-! ### What the scan leaves in `rx_bytes` -/

@[simp] theorem State.pushAck_rxBytes (id : MsgId) (s : State) : (s.pushAck id).link.rxBytes = s.link.rxBytes := by
  rcases State.pushAck_cases id s with ⟨-, h⟩ | ⟨-, h⟩ <;> simp [h]

@[simp] theorem State.queueRx_rxBytes (m : Message) (s : State) : (s.queueRx m).link.rxBytes = s.link.rxBytes := by
  rcases State.queueRx_cases m s with ⟨-, h⟩ | ⟨-, h⟩ <;> simp [h]

@[simp] theorem State.acceptData_rxBytes (m : Message) (s : State) :
    (s.acceptData m).link.rxBytes = s.link.rxBytes := by
  rcases State.acceptData_cases m s with ⟨-, h⟩ | ⟨-, h⟩ <;> simp [h]

/-- Running a head takes bytes off the front of `rx_bytes`, at least one where the scan goes on. -/
theorem State.runHead_rxBytes (h : Head) (s : State) :
    ∃ k, (s.runHead h).link.rxBytes = s.link.rxBytes.drop k ∧ (stopsScan h = false → 1 ≤ k) := by
  have hframe (m : Message) : 1 ≤ frameLength m := by simp only [frameLength, headerLen]; omega
  cases h with
  | notMagic => exact ⟨1, rfl, fun _ => le_rfl⟩
  | incompleteHeader => exact ⟨0, rfl, nofun⟩
  | badLen => exact ⟨1, rfl, fun _ => le_rfl⟩
  | incompleteFrame => exact ⟨0, rfl, nofun⟩
  | badCsum => exact ⟨1, rfl, fun _ => le_rfl⟩
  | echo m => exact ⟨frameLength m, rfl, fun _ => hframe m⟩
  | ack m => exact ⟨frameLength m, rfl, fun _ => hframe m⟩
  | reset m => exact ⟨s.link.rxBytes.length, by simp [State.runHead], nofun⟩
  | data m => exact ⟨frameLength m, by simp [State.runHead, State.consumeFrame, rbDrop], fun _ => hframe m⟩

/-- The scan leaves a tail of `rx_bytes`. -/
theorem State.scanWithin_rxBytes_suffix (fuel : Nat) (s : State) :
    (s.scanWithin fuel).link.rxBytes <:+ s.link.rxBytes :=
  State.scanWithin_keeps (P := fun t => t.link.rxBytes <:+ s.link.rxBytes)
    (fun h t ht _ => by
      obtain ⟨k, hk, -⟩ := State.runHead_rxBytes h t
      rw [hk]
      exact (List.drop_suffix k _).trans ht)
    fuel s (List.suffix_refl _)

/-- With more passes than bytes the scan ends on no byte or on bytes that wait (10_state.md R36 item 3). -/
theorem State.scanWithin_waits (fuel : Nat) (s : State) (hfuel : s.link.rxBytes.length < fuel) :
    waitsForBytes (s.scanWithin fuel).params (s.scanWithin fuel).link.rxBytes = true := by
  induction fuel generalizing s with
  | zero => omega
  | succ n ih =>
    rw [State.scanWithin_succ]
    split
    next hnone => simp [classify_eq_none.1 hnone, waitsForBytes]
    next h hc =>
      split
      next hstop =>
        cases h with
        | incompleteHeader => exact waitsForBytes_of_classify hc (.inl rfl)
        | incompleteFrame => exact waitsForBytes_of_classify hc (.inr rfl)
        | reset m => rfl
        | _ => exact nomatch hstop
      next hgoes =>
        obtain ⟨k, hk, hpos⟩ := State.runHead_rxBytes h s
        have hne : s.link.rxBytes.length ≠ 0 := fun h0 => by simp [List.length_eq_zero_iff.1 h0] at hc
        have hk1 := hpos (by simpa using hgoes)
        refine ih _ ?_
        rw [hk, List.length_drop]
        omega

theorem State.scan_waits (s : State) : waitsForBytes s.scan.params s.scan.link.rxBytes = true :=
  State.scanWithin_waits _ s (Nat.lt_succ_self _)

theorem State.scan_rxBytes_suffix (s : State) : s.scan.link.rxBytes <:+ s.link.rxBytes :=
  State.scanWithin_rxBytes_suffix _ s

/-- Settles O22: each pass but the last takes a byte off, so the bound on the passes is not what ends the scan. -/
theorem scanLeavesOnlyAnIncompleteFrame : Obligations.ScanLeavesOnlyAnIncompleteFrame :=
  fun s => ⟨s.scan, rfl, s.scan_waits, s.scan_rxBytes_suffix⟩

/-! ### What no instruction but `ENABLE` writes (10_state.md R32, R33) -/

/-- The parameters, the schedule and `enabled` stand, and no sticky flag is cleared. -/
structure ControlKept (s t : State) : Prop where
  params : t.params = s.params
  events : t.events = s.events
  enabled : t.link.enabled = s.link.enabled
  rx_overrun : s.link.stRxOverrun = true → t.link.stRxOverrun = true
  ack_dropped : s.link.stAckDropped = true → t.link.stAckDropped = true
  rxq_dropped : s.link.stRxqDropped = true → t.link.stRxqDropped = true

namespace ControlKept

theorem refl (s : State) : ControlKept s s := ⟨rfl, rfl, rfl, id, id, id⟩

theorem trans {s t u : State} (h : ControlKept s t) (k : ControlKept t u) : ControlKept s u where
  params := k.params.trans h.params
  events := k.events.trans h.events
  enabled := k.enabled.trans h.enabled
  rx_overrun hs := k.rx_overrun (h.rx_overrun hs)
  ack_dropped hs := k.ack_dropped (h.ack_dropped hs)
  rxq_dropped hs := k.rxq_dropped (h.rxq_dropped hs)

theorem setOut (s : State) (v : Output) : ControlKept s (s.setOut v) := { refl s with }

theorem queueTx (m : Message) (s : State) : ControlKept s (s.queueTx m) := by
  rcases State.queueTx_cases m s with ⟨-, h⟩ | ⟨-, h⟩ <;> rw [h] <;> exact { refl s with }

theorem resetLink (s : State) : ControlKept s s.resetLink := { refl s with }

theorem resetAndAnnounce (s : State) : ControlKept s s.resetAndAnnounce :=
  (resetLink s).trans (queueTx _ _)

theorem pushAck (id : MsgId) (s : State) : ControlKept s (s.pushAck id) := by
  rcases State.pushAck_cases id s with ⟨-, h⟩ | ⟨-, h⟩ <;> rw [h]
  · exact { refl s with }
  · exact { refl s with ack_dropped := fun _ => rfl }

theorem queueRx (m : Message) (s : State) : ControlKept s (s.queueRx m) := by
  rcases State.queueRx_cases m s with ⟨-, h⟩ | ⟨-, h⟩ <;> rw [h]
  · exact { refl s with }
  · exact { refl s with rxq_dropped := fun _ => rfl }

theorem acceptData (m : Message) (s : State) : ControlKept s (s.acceptData m) := by
  rcases State.acceptData_cases m s with ⟨-, h⟩ | ⟨-, h⟩ <;> rw [h]
  · refine (pushAck m.msgId s).trans (.trans ?_ (queueRx m _))
    exact { refl (s.pushAck m.msgId) with }
  · exact { pushAck m.msgId s with }

theorem runHead (h : Head) (s : State) : ControlKept s (s.runHead h) := by
  cases h with
  | data m => exact { acceptData m s with }
  | _ => exact { refl s with }

theorem scan (s : State) : ControlKept s s.scan :=
  State.scanWithin_keeps (P := ControlKept s) (fun h t ht _ => ht.trans (runHead h t)) _ s (refl s)

theorem bufferByte (b : Byte) (s : State) : ControlKept s (s.bufferByte b) := by
  rcases State.bufferByte_cases b s with ⟨-, h⟩ | ⟨-, h⟩ <;> rw [h]
  · exact { refl s with }
  · exact { refl s with rx_overrun := fun _ => rfl }

end ControlKept

/-! ### What an opportunity does to the link (42_transmit.md R162 to R168) -/

/-- The link records an opportunity at time `now` can leave: the record itself, or it with what one branch writes. -/
inductive ArbiterEffect (p : Params) (now : Timestamp) (l : Link) : Link → Prop
  | unchanged : ArbiterEffect p now l l
  | drained (b : Byte) (rest : List Byte) (hbytes : l.txBytes = b :: rest) :
      ArbiterEffect p now l { l with txBytes := rest }
  | acked : ArbiterEffect p now l { l with pending := none }
  | started (m : Message) (rest : List Message) (bytes : List Byte) (hqueue : l.txQueue = m :: rest)
      (hfit : bytes = l.txBytes ∨ bytes.length ≤ p.txBytesCap) :
      ArbiterEffect p now l
        { l with txQueue := rest, pending := some m, retryCount := 0, lastSendTime := now, txBytes := bytes }
  | retried (bytes : List Byte) (hbound : l.retryCount < p.maxRetries)
      (hfit : bytes = l.txBytes ∨ bytes.length ≤ p.txBytesCap) :
      ArbiterEffect p now l { l with retryCount := l.retryCount + 1, lastSendTime := now, txBytes := bytes }
  | exhausted (m : Message) (queue : List Message) (hpending : l.pending = some m)
      (hbound : p.maxRetries ≤ l.retryCount) (hdue : p.retryIntervalUs ≤ elapsed now l.lastSendTime)
      (hqueue : queue = [] ∨ queue = [resetMessage p]) :
      ArbiterEffect p now l { l.cleared with txQueue := queue }
  | waited (deadline : Option Timestamp) : ArbiterEffect p now l { l with wakeDeadline := deadline }

/-- No branch changes `enabled` or a sticky flag. -/
theorem ArbiterEffect.control {p : Params} {now : Timestamp} {l l' : Link} (h : ArbiterEffect p now l l') :
    l'.enabled = l.enabled ∧ l'.stRxOverrun = l.stRxOverrun ∧ l'.stAckDropped = l.stAckDropped ∧
      l'.stRxqDropped = l.stRxqDropped := by
  cases h <;> exact ⟨rfl, rfl, rfl, rfl⟩

/-- Pushing a frame writes `tx_bytes` alone, and within its capacity. -/
theorem State.pushFrame_eq (m : Message) (s : State) :
    ∃ bytes, (bytes = s.link.txBytes ∨ bytes.length ≤ s.params.txBytesCap) ∧ s.pushFrame m = s.setTxBytes bytes := by
  rcases State.pushFrame_cases m s with ⟨hfit, h⟩ | ⟨-, h⟩
  · exact ⟨_, .inr (by simpa [frameLength] using hfit), h⟩
  · exact ⟨_, .inl rfl, h⟩

/-- Queueing the reset frame on a reset link leaves at most that frame queued (43_link_control.md R191). -/
theorem State.resetAndAnnounce_link (s : State) :
    ∃ queue, (queue = [] ∨ queue = [resetMessage s.params]) ∧
      s.resetAndAnnounce.link = { s.link.cleared with txQueue := queue } := by
  unfold State.resetAndAnnounce
  rcases State.queueTx_cases (resetMessage s.params) s.resetLink with ⟨-, h⟩ | ⟨-, h⟩
  · exact ⟨_, .inr rfl, by rw [h]; rfl⟩
  · exact ⟨_, .inl rfl, by rw [h]; rfl⟩

theorem Link.isDue_iff {p : Params} {now : Timestamp} {l : Link} :
    l.isDue p now = true ↔ (∃ m, l.pending = some m) ∧ p.retryIntervalUs ≤ elapsed now l.lastSendTime := by
  simp [Link.isDue, Option.isSome_iff_exists]

/-- A selected branch has its effect on the link, and neither the parameters nor the schedule change. -/
theorem State.runBranch_effect {b : Branch} {now : Timestamp} {s : State} (uartReady : Bool)
    (h : selectBranch s.params now s.link = some b) :
    (s.runBranch b now uartReady).params = s.params ∧ (s.runBranch b now uartReady).events = s.events ∧
      ArbiterEffect s.params now s.link (s.runBranch b now uartReady).link := by
  obtain ⟨-, hcond⟩ := selectBranch_some h
  cases b with
  | drain =>
    simp only [State.runBranch, State.drainByte]
    cases uartReady with
    | false => exact ⟨rfl, rfl, .unchanged⟩
    | true =>
      cases hbytes : s.link.txBytes with
      | nil => exact absurd hbytes hcond
      | cons b rest => exact ⟨rfl, rfl, .drained b rest hbytes⟩
  | acked =>
    simp only [State.runBranch, State.finishPending]
    split
    · exact ⟨rfl, rfl, .acked⟩
    · exact ⟨rfl, rfl, .unchanged⟩
  | start =>
    simp only [State.runBranch, State.startNext]
    cases hqueue : s.link.txQueue with
    | nil => exact ⟨rfl, rfl, .unchanged⟩
    | cons m rest =>
      obtain ⟨bytes, hfit, he⟩ := State.pushFrame_eq m
        ((((s.setTxQueue rest).setPending (some m)).setRetryCount 0).setLastSendTime now)
      simp only [qPop_cons, he]
      exact ⟨rfl, rfl, .started m rest bytes hqueue hfit⟩
  | retry =>
    obtain ⟨-, -, -, hbound⟩ := hcond
    simp only [State.runBranch, State.retryPending]
    split
    next m hm =>
      obtain ⟨bytes, hfit, he⟩ := State.pushFrame_eq m s
      rw [he]
      exact ⟨rfl, rfl, .retried bytes hbound hfit⟩
    next => exact ⟨rfl, rfl, .unchanged⟩
  | exhaust =>
    obtain ⟨-, -, hdue, hbound⟩ := hcond
    obtain ⟨⟨m, hm⟩, hlate⟩ := Link.isDue_iff.1 hdue
    simp only [State.runBranch, State.exhaustPending, hm]
    split
    · obtain ⟨queue, hqueue, he⟩ := s.resetAndAnnounce_link
      have hkept := ControlKept.resetAndAnnounce s
      refine ⟨hkept.params, hkept.events, ?_⟩
      rw [State.setOut_link, State.addLabel_link, he]
      exact .exhausted m queue hm hbound hlate hqueue
    · exact ⟨rfl, rfl, .exhausted m [] hm hbound hlate (.inl rfl)⟩
  | wait => exact ⟨rfl, rfl, .waited _⟩

/-- The arbiter has the effect of the branch it selects, or none on a disabled link. -/
theorem State.arbitrate_effect (now : Timestamp) (uartReady : Bool) (s : State) :
    (s.arbitrate now uartReady).params = s.params ∧ (s.arbitrate now uartReady).events = s.events ∧
      ArbiterEffect s.params now s.link (s.arbitrate now uartReady).link := by
  unfold State.arbitrate
  split
  · exact ⟨rfl, rfl, .unchanged⟩
  next b hb => exact State.runBranch_effect uartReady hb

/-- A branch's own row has that branch's effect where it is selected and none elsewhere. -/
theorem State.runIfSelected_effect (b : Branch) (now : Timestamp) (uartReady : Bool) (s : State) :
    (s.runIfSelected b now uartReady).params = s.params ∧ (s.runIfSelected b now uartReady).events = s.events ∧
      ArbiterEffect s.params now s.link (s.runIfSelected b now uartReady).link := by
  unfold State.runIfSelected
  split
  next hb => exact State.runBranch_effect uartReady hb
  next => exact ⟨rfl, rfl, .unchanged⟩

theorem ControlKept.of_effect {s t : State} {now : Timestamp}
    (h : t.params = s.params ∧ t.events = s.events ∧ ArbiterEffect s.params now s.link t.link) : ControlKept s t := by
  obtain ⟨hparams, hevents, heffect⟩ := h
  obtain ⟨henabled, hover, hack, hrxq⟩ := heffect.control
  exact ⟨hparams, hevents, henabled, fun hs => hover.trans hs, fun hs => hack.trans hs, fun hs => hrxq.trans hs⟩

/-! ### Every instruction but `ENABLE` -/

/-- What `RX_BYTE` leaves: nothing but the output port on a disabled link, the scan of the pushed byte on an enabled one
(41_receive.md R131). -/
theorem execRxByte_cases {b : Byte} {s t : State} (h : execRxByte b s = .next t) :
    (s.link.enabled = false ∧ t = s.setOut .none) ∨
    (s.link.enabled = true ∧ t = ((s.setOut .none).bufferByte b).scan) := by
  simp only [execRxByte] at h
  split at h
  next henabled =>
    cases h
    exact .inr ⟨henabled, rfl⟩
  next hdisabled =>
    cases h
    exact .inl ⟨by simpa using hdisabled, rfl⟩

/-- What `SEND` leaves: an error at the output port, or the message queued under the next id (42_transmit.md R160). -/
theorem execSend_cases {cmd : Byte} {data : List Byte} {s t : State} (h : execSend cmd data s = .next t) :
    (∃ r, t = s.setOut (.result r)) ∨
    (s.link.enabled = true ∧ data.length ≤ s.params.maxAppData ∧ s.link.txQueue.length < s.params.txQueueCap ∧
      t = ((s.setTxQueue (s.link.txQueue ++ [dataMessage s.params s.link.nextMsgId cmd data])).setNextMsgId
        (s.link.nextMsgId + 1)).setOut (.result .ok)) := by
  unfold execSend at h
  split at h
  next =>
    cases h
    exact .inl ⟨_, rfl⟩
  next henabled =>
    split at h
    next =>
      cases h
      exact .inl ⟨_, rfl⟩
    next hlen =>
      split at h
      next =>
        cases h
        exact .inl ⟨_, rfl⟩
      next q hq =>
        obtain ⟨hroom, rfl⟩ := qPush_some.1 hq
        cases h
        exact .inr ⟨by simpa using henabled, Nat.le_of_not_lt hlen, hroom, rfl⟩

/-- What `RX_POP` leaves: the queue without its oldest message, or as it was when empty (41_receive.md R141). -/
theorem execRxPop_cases {s t : State} (h : execRxPop s = .next t) :
    (s.link.rxQueue = [] ∧ t = s.setOut (.popped none)) ∨
    (∃ m rest, s.link.rxQueue = m :: rest ∧ t = (s.setRxQueue rest).setOut (.popped (some m))) := by
  cases hqueue : s.link.rxQueue with
  | nil => exact .inl ⟨rfl, by simpa [execRxPop, hqueue] using h.symm⟩
  | cons m rest => exact .inr ⟨m, rest, rfl, by simpa [execRxPop, hqueue] using h.symm⟩

theorem execRxByte_controlKept {b : Byte} {s t : State} (h : execRxByte b s = .next t) : ControlKept s t := by
  rcases execRxByte_cases h with ⟨-, rfl⟩ | ⟨-, rfl⟩
  · exact .setOut s .none
  · exact (ControlKept.setOut s .none).trans ((ControlKept.bufferByte b _).trans (ControlKept.scan _))

theorem execSend_controlKept {cmd : Byte} {data : List Byte} {s t : State} (h : execSend cmd data s = .next t) :
    ControlKept s t := by
  rcases execSend_cases h with ⟨r, rfl⟩ | ⟨-, -, -, rfl⟩
  · exact .setOut s _
  · exact { ControlKept.refl s with }

theorem execRxPop_controlKept {s t : State} (h : execRxPop s = .next t) : ControlKept s t := by
  rcases execRxPop_cases h with ⟨-, rfl⟩ | ⟨m, rest, -, rfl⟩
  · exact .setOut s _
  · exact { ControlKept.refl s with }

theorem execArbRetryDue_controlKept {now : Timestamp} {uartReady : Bool} {s t : State}
    (h : execArbRetryDue now uartReady s = .next t) : ControlKept s t := by
  unfold execArbRetryDue at h
  split at h
  next hb =>
    cases h
    exact .of_effect (State.runBranch_effect uartReady hb)
  next =>
    cases h
    exact .of_effect (State.runIfSelected_effect .exhaust now uartReady s)

/-- Only `ENABLE` writes the parameters' side of the state or clears a flag: row by row of the opcode table. -/
theorem exec_controlKept {s t : State} {i : Instr} (hi : i ≠ .enable) (h : exec i s = .next t) : ControlKept s t := by
  cases i with
  | enable => exact absurd rfl hi
  | rxByte b => exact execRxByte_controlKept h
  | send cmd data => exact execSend_controlKept h
  | rxPop => exact execRxPop_controlKept h
  | arbRetryDue now uartReady => exact execArbRetryDue_controlKept h
  | txOpp now uartReady => cases h; exact .of_effect (s.arbitrate_effect now uartReady)
  | timer now => cases h; exact (ControlKept.of_effect (s.arbitrate_effect now false)).trans (.setOut _ .none)
  | arbDrain now uartReady | arbAcked now uartReady | arbStart now uartReady | arbRetry now uartReady
  | arbExhaust now uartReady | arbWait now uartReady =>
    cases h; exact .of_effect (s.runIfSelected_effect _ now uartReady)
  | echoFrame | ackFrame | resetFrame | dataFrame | notMagic | incompleteHeader | badLen | incompleteFrame | badCsum =>
    cases h; exact .runHead _ s
  | rxScan => cases h; exact .scan s
  | linkReset => cases h; exact .resetLink s
  | sendReset => cases h; exact .resetAndAnnounce s
  | findHeader => cases h; exact { ControlKept.refl s with }
  | status | checksum | checksumOk | packBitfield | unpackBitfield | encode | decode | makeAck | makeReset =>
    cases h; exact .setOut s _

/-- Settles O48: `ENABLE` writes the link alone, and every other row keeps `enabled` too. -/
theorem parametersAreNeverWritten : Obligations.ParametersAreNeverWritten := by
  intro s t i h
  by_cases hi : i = .enable
  · subst hi
    cases h
    exact ⟨rfl, fun hne => absurd rfl hne⟩
  · have hkept := exec_controlKept hi h
    exact ⟨hkept.params, fun _ => hkept.enabled⟩

/-- Settles O47: no row but `ENABLE` clears a flag, and `ENABLE` clears all three. -/
theorem onlyEnableClearsStickyFlags : Obligations.OnlyEnableClearsStickyFlags := by
  constructor
  · intro s t i hi h
    have hkept := exec_controlKept hi h
    exact ⟨hkept.rx_overrun, hkept.ack_dropped, hkept.rxq_dropped⟩
  · intro s t h
    cases h
    exact ⟨rfl, rfl, rfl⟩

/-- Settles O44: the answer goes to the output port and nothing is written. -/
theorem statusHasNoSideEffect : Obligations.StatusHasNoSideEffect := fun _ => rfl

/-! ### What an opportunity may change (10_state.md R22) -/

/-- The values of 10_state.md R37, read off the link reset. -/
theorem Link.cleared_resetValues (l : Link) : ResetValues l.cleared :=
  ⟨rfl, rfl, rfl, rfl, rfl, rfl, rfl, rfl, rfl, rfl, rfl⟩

/-- `TX_OPP` and `TIMER` differ in the UART's readiness and the output port alone. -/
theorem exec_opportunity_effect {s t : State} {i : Instr} {now : Timestamp} {uartReady : Bool}
    (hi : i = .txOpp now uartReady ∨ i = .timer now) (h : exec i s = .next t) :
    t.params = s.params ∧ t.events = s.events ∧ ArbiterEffect s.params now s.link t.link := by
  rcases hi with rfl | rfl
  · cases h
    exact s.arbitrate_effect now uartReady
  · cases h
    exact s.arbitrate_effect now false

/-- A branch leaves the receive side, the ids and the recorded ack alone, but for exhaustion's link reset. -/
theorem ArbiterEffect.receiveSide {p : Params} {now : Timestamp} {l l' : Link} (h : ArbiterEffect p now l l') :
    (l'.lastReceivedId = l.lastReceivedId ∧ l'.peerAck = l.peerAck ∧ l'.rxQueue = l.rxQueue ∧
      l'.rxBytes = l.rxBytes ∧ l'.nextMsgId = l.nextMsgId) ∨
    (∃ m, l.pending = some m ∧ p.maxRetries ≤ l.retryCount ∧ p.retryIntervalUs ≤ elapsed now l.lastSendTime ∧
      ResetValues { l' with txQueue := [] }) := by
  cases h with
  | exhausted m queue hpending hbound hdue => exact .inr ⟨m, hpending, hbound, hdue, l.cleared_resetValues⟩
  | _ => exact .inl ⟨rfl, rfl, rfl, rfl, rfl⟩

/-- Settles O37: the branches' effects on the link, one by one. -/
theorem opportunityFrame : Obligations.OpportunityFrame := by
  intro s t i now uartReady hi h
  obtain ⟨hparams, hevents, heffect⟩ := exec_opportunity_effect hi h
  obtain ⟨henabled, hover, hack, hrxq⟩ := heffect.control
  exact ⟨hparams, hevents, henabled, hover, hack, hrxq, heffect.receiveSide⟩

/-! ### What a received byte may change (10_state.md R22) -/

/-- The transmit side stands, and the two buffers the receive side fills are only appended to. -/
structure TransmitSideKept (l l' : Link) : Prop where
  next_msg_id : l'.nextMsgId = l.nextMsgId
  pending : l'.pending = l.pending
  retry_count : l'.retryCount = l.retryCount
  last_send_time : l'.lastSendTime = l.lastSendTime
  tx_queue : l'.txQueue = l.txQueue
  wake_deadline : l'.wakeDeadline = l.wakeDeadline
  tx_bytes : l.txBytes <+: l'.txBytes
  rx_queue : l.rxQueue <+: l'.rxQueue

namespace TransmitSideKept

theorem refl (l : Link) : TransmitSideKept l l :=
  ⟨rfl, rfl, rfl, rfl, rfl, rfl, List.prefix_rfl, List.prefix_rfl⟩

theorem trans {l m n : Link} (h : TransmitSideKept l m) (k : TransmitSideKept m n) : TransmitSideKept l n where
  next_msg_id := k.next_msg_id.trans h.next_msg_id
  pending := k.pending.trans h.pending
  retry_count := k.retry_count.trans h.retry_count
  last_send_time := k.last_send_time.trans h.last_send_time
  tx_queue := k.tx_queue.trans h.tx_queue
  wake_deadline := k.wake_deadline.trans h.wake_deadline
  tx_bytes := h.tx_bytes.trans k.tx_bytes
  rx_queue := h.rx_queue.trans k.rx_queue

theorem pushAck (id : MsgId) (s : State) : TransmitSideKept s.link (s.pushAck id).link := by
  rcases State.pushAck_cases id s with ⟨-, h⟩ | ⟨-, h⟩ <;> rw [h]
  · exact { refl s.link with tx_bytes := List.prefix_append _ _ }
  · exact { refl s.link with }

theorem queueRx (m : Message) (s : State) : TransmitSideKept s.link (s.queueRx m).link := by
  rcases State.queueRx_cases m s with ⟨-, h⟩ | ⟨-, h⟩ <;> rw [h]
  · exact { refl s.link with rx_queue := List.prefix_append _ _ }
  · exact { refl s.link with }

theorem acceptData (m : Message) (s : State) : TransmitSideKept s.link (s.acceptData m).link := by
  rcases State.acceptData_cases m s with ⟨-, h⟩ | ⟨-, h⟩ <;> rw [h]
  · refine (pushAck m.msgId s).trans (.trans ?_ (queueRx m _))
    exact { refl (s.pushAck m.msgId).link with }
  · exact pushAck m.msgId s

theorem bufferByte (b : Byte) (s : State) : TransmitSideKept s.link (s.bufferByte b).link := by
  rcases State.bufferByte_cases b s with ⟨-, h⟩ | ⟨-, h⟩ <;> rw [h] <;>
    exact { refl s.link with }

end TransmitSideKept

/-- Only a reset frame touches the transmit side, and it resets the link (41_receive.md R137). -/
theorem State.runHead_transmitSide (h : Head) (s : State) :
    ResetValues (s.runHead h).link ∨ TransmitSideKept s.link (s.runHead h).link := by
  cases h with
  | reset m => exact .inl s.link.cleared_resetValues
  | data m => exact .inr { TransmitSideKept.acceptData m s with }
  | _ => exact .inr { TransmitSideKept.refl s.link with }

/-- A link reset empties `rx_bytes`, so no head is run after it in the same scan. -/
theorem State.scan_transmitSide (s : State) : ResetValues s.scan.link ∨ TransmitSideKept s.link s.scan.link :=
  State.scanWithin_keeps (P := fun t => ResetValues t.link ∨ TransmitSideKept s.link t.link)
    (fun h t ht hc => by
      rcases ht with hreset | hkept
      · simp [hreset.rx_bytes] at hc
      · exact (t.runHead_transmitSide h).imp_right hkept.trans)
    _ s (.inr (.refl s.link))

@[simp] theorem State.pushAck_out (id : MsgId) (s : State) : (s.pushAck id).out = s.out := by
  rcases State.pushAck_cases id s with ⟨-, h⟩ | ⟨-, h⟩ <;> simp [h]

@[simp] theorem State.queueRx_out (m : Message) (s : State) : (s.queueRx m).out = s.out := by
  rcases State.queueRx_cases m s with ⟨-, h⟩ | ⟨-, h⟩ <;> simp [h]

@[simp] theorem State.acceptData_out (m : Message) (s : State) : (s.acceptData m).out = s.out := by
  rcases State.acceptData_cases m s with ⟨-, h⟩ | ⟨-, h⟩ <;> simp [h]

@[simp] theorem State.bufferByte_out (b : Byte) (s : State) : (s.bufferByte b).out = s.out := by
  rcases State.bufferByte_cases b s with ⟨-, h⟩ | ⟨-, h⟩ <;> simp [h]

@[simp] theorem State.runHead_out (h : Head) (s : State) : (s.runHead h).out = s.out := by
  cases h with
  | data m => exact State.acceptData_out m s
  | _ => rfl

@[simp] theorem State.scan_out (s : State) : s.scan.out = s.out :=
  State.scanWithin_keeps (P := fun t => t.out = s.out) (fun h t ht _ => (t.runHead_out h).trans ht) _ s rfl

/-- Settles O28: the scan's frame, after the byte is pushed or lost. -/
theorem rxByteFrame : Obligations.RxByteFrame := by
  intro s t b h
  have hkept : ControlKept s t := execRxByte_controlKept h
  refine ⟨hkept.params, hkept.events, hkept.enabled, ?_⟩
  rcases execRxByte_cases h with ⟨-, rfl⟩ | ⟨-, rfl⟩
  · exact ⟨rfl, .inr ⟨rfl, rfl, rfl, rfl, rfl, rfl, List.prefix_rfl, List.prefix_rfl⟩⟩
  · refine ⟨by simp, ((s.setOut .none).bufferByte b).scan_transmitSide.imp_right fun hscan => ?_⟩
    obtain ⟨hid, hpending, hretry, htime, hqueue, hwake, htx, hrx⟩ :=
      (TransmitSideKept.bufferByte b (s.setOut .none)).trans hscan
    exact ⟨hid, hpending, hretry, htime, hqueue, hwake, htx, hrx⟩

/-! ### The terms of the invariant (10_state.md R36) -/

@[simp] theorem mem_applicationMessages {q : List Message} {m : Message} :
    m ∈ applicationMessages q ↔ m ∈ q ∧ m.reset = 0 := by
  simp [applicationMessages]

/-- The ids of a queue stay consecutive when the next id is queued behind them. -/
theorem consecutiveUpTo_append {next : MsgId} {ids : List MsgId} (h : consecutiveUpTo next ids = true) :
    consecutiveUpTo (next + 1) (ids ++ [next]) = true := by
  induction ids with
  | nil => simp [consecutiveUpTo]
  | cons i rest ih =>
    cases rest with
    | nil => simpa [consecutiveUpTo] using h
    | cons j rest =>
      simp only [consecutiveUpTo, List.cons_append, Bool.and_eq_true] at h ih ⊢
      obtain ⟨hij, hrest⟩ := h
      exact ⟨hij, ih hrest⟩

/-- The ids of a queue stay consecutive when the oldest leaves. -/
theorem consecutiveUpTo_tail {next i : MsgId} {ids : List MsgId} (h : consecutiveUpTo next (i :: ids) = true) :
    consecutiveUpTo next ids = true := by
  cases ids with
  | nil => rfl
  | cons j rest =>
    simp only [consecutiveUpTo, Bool.and_eq_true] at h
    exact h.2

/-- The ids of the application messages stay consecutive when the oldest message, reset frame or not, leaves. -/
theorem consecutiveUpTo_applicationMessages_tail {next : MsgId} {m : Message} {rest : List Message}
    (h : consecutiveUpTo next ((applicationMessages (m :: rest)).map Message.msgId) = true) :
    consecutiveUpTo next ((applicationMessages rest).map Message.msgId) = true := by
  by_cases hm : m.reset = 0
  · rw [applicationMessages, List.filter_cons_of_pos (by simpa using hm)] at h
    exact consecutiveUpTo_tail h
  · rw [applicationMessages, List.filter_cons_of_neg (by simpa using hm)] at h
    exact h

/-- The invariant reads the parameters and the link alone, not the ports or the schedule. -/
theorem Inv.congr {s t : State} (hs : Inv s) (hparams : t.params = s.params) (hlink : t.link = s.link) : Inv t := by
  cases s
  cases t
  obtain rfl := hparams
  obtain rfl := hlink
  exact { hs with }

/-- A link at its reset values, with at most a reset frame queued, has the invariant. -/
theorem inv_of_resetValues {t : State} (hparams : t.params.wf = true)
    (hreset : ResetValues { t.link with txQueue := [] })
    (hqueue : t.link.txQueue = [] ∨ t.link.txQueue = [resetMessage t.params])
    (hdisabled : t.link.enabled = false → t.link = Link.powerOn) : Inv t := by
  obtain ⟨-, -, hpending, -, -, hrxq, htx, hrx, -, -, -⟩ := hreset
  obtain ⟨-, -, -, hcap, -, -, -⟩ := Params.wf_iff.1 hparams
  dsimp only at hpending hrxq htx hrx
  have happ : applicationMessages t.link.txQueue = [] := by
    rcases hqueue with h | h <;> simp [h, applicationMessages, resetMessage]
  exact {
    params_wf := hparams
    retry_bound := fun m hm => by simp [hpending] at hm
    rx_waits := by simp [hrx, waitsForBytes]
    payloads_wf := by rcases hqueue with h | h <;> simp [h, hrxq, hpending, resetMessage, Message.wf]
    sent_nonempty := by simp [hpending, happ]
    ids_consecutive := by simp [happ, consecutiveUpTo]
    tx_bytes_fit := by simp [htx]
    rx_bytes_fit := by simp [hrx]
    tx_queue_fits := by rcases hqueue with h | h <;> simp [h, hcap]
    rx_queue_fits := by simp [hrxq]
    before_enable := hdisabled }

/-- Settles O52: at power-on every in-flight field has its reset value (10_state.md R38). -/
theorem powerOnHasTheInvariant : Obligations.PowerOnHasTheInvariant := by
  have hpowerOn (p : Params) (hp : p.wf = true) : Inv (State.powerOn p) :=
    inv_of_resetValues hp Link.powerOn.cleared_resetValues (.inl rfl) fun _ => rfl
  exact ⟨hpowerOn, hpowerOn _ (by decide)⟩

/-! ### The invariant and the transmit side -/

/-- Every branch on an enabled link keeps the invariant (42_transmit.md R162 to R168). -/
theorem Inv.of_arbiterEffect {s : State} {now : Timestamp} {l : Link} (hs : Inv s) (henabled : s.link.enabled = true)
    (h : ArbiterEffect s.params now s.link l) : Inv { s with link := l } := by
  obtain ⟨hsame, -, -, -⟩ := h.control
  have hstays : l.enabled = false → l = Link.powerOn := fun hl => by simp [hsame, henabled] at hl
  have hbytes {bytes : List Byte} (hfit : bytes = s.link.txBytes ∨ bytes.length ≤ s.params.txBytesCap) :
      bytes.length ≤ s.params.txBytesCap := by
    rcases hfit with rfl | hfit
    · exact hs.tx_bytes_fit
    · exact hfit
  cases h with
  | unchanged => exact { hs with }
  | drained b rest hpop =>
    have hfit := hs.tx_bytes_fit
    rw [hpop, List.length_cons] at hfit
    exact { hs with tx_bytes_fit := Nat.le_of_succ_le hfit, before_enable := hstays }
  | acked =>
    exact { hs with
      retry_bound := nofun
      payloads_wf := fun m hm => hs.payloads_wf m (by grind)
      sent_nonempty := fun m hm => hs.sent_nonempty m (by grind [mem_applicationMessages])
      before_enable := hstays }
  | started m rest bytes hqueue hfit =>
    have hids := hs.ids_consecutive
    have hroom := hs.tx_queue_fits
    rw [hqueue] at hids hroom
    exact { hs with
      retry_bound := fun _ _ => Nat.zero_le _
      payloads_wf := fun k hk => hs.payloads_wf k (by grind)
      sent_nonempty := fun k hk => hs.sent_nonempty k (by grind [mem_applicationMessages])
      ids_consecutive := consecutiveUpTo_applicationMessages_tail hids
      tx_bytes_fit := hbytes hfit
      tx_queue_fits := Nat.le_of_succ_le hroom
      before_enable := hstays }
  | retried bytes hbound hfit =>
    exact { hs with
      retry_bound := fun _ _ => hbound
      tx_bytes_fit := hbytes hfit
      before_enable := hstays }
  | exhausted m queue hpending hbound hdue hqueue =>
    exact inv_of_resetValues hs.params_wf s.link.cleared_resetValues hqueue hstays
  | waited d => exact { hs with before_enable := hstays }

/-- An opportunity keeps the invariant: a branch on an enabled link, and nothing on a disabled one. -/
theorem Inv.arbitrate {s : State} (hs : Inv s) (now : Timestamp) (uartReady : Bool) : Inv (s.arbitrate now uartReady) := by
  obtain ⟨hparams, -, heffect⟩ := s.arbitrate_effect now uartReady
  cases henabled : s.link.enabled with
  | true => exact (hs.of_arbiterEffect henabled heffect).congr hparams rfl
  | false => exact hs.congr hparams (by rw [State.arbitrate, selectBranch_disabled henabled]; rfl)

/-- `SEND` keeps the invariant: what it queues has a command byte, a legal length and the next id. -/
theorem Inv.send {cmd : Byte} {data : List Byte} {s t : State} (hs : Inv s) (h : execSend cmd data s = .next t) : Inv t := by
  rcases execSend_cases h with ⟨r, rfl⟩ | ⟨henabled, hlen, hroom, rfl⟩
  · exact hs.congr rfl rfl
  obtain ⟨-, -, -, -, -, -, hmax⟩ := Params.wf_iff.1 hs.params_wf
  have hwf : (dataMessage s.params s.link.nextMsgId cmd data).wf = true :=
    decide_eq_true (by simp only [dataMessage, List.length_cons, maxPayloadLen]; omega)
  exact { hs with
    payloads_wf := fun m hm => by
      have hmem : m ∈ s.link.txQueue ++ s.link.rxQueue ++ s.link.pending.toList ∨
          m = dataMessage s.params s.link.nextMsgId cmd data := by
        grind [State.setOut_link, State.setNextMsgId_link, State.setTxQueue_link]
      rcases hmem with hold | rfl
      · exact hs.payloads_wf m hold
      · exact hwf
    sent_nonempty := fun m hm => by
      have hmem : m ∈ applicationMessages (s.link.txQueue ++ s.link.pending.toList) ∨
          m = dataMessage s.params s.link.nextMsgId cmd data := by
        grind [mem_applicationMessages, State.setOut_link, State.setNextMsgId_link, State.setTxQueue_link]
      rcases hmem with hold | rfl
      · exact hs.sent_nonempty m hold
      · simp [dataMessage]
    ids_consecutive := by
      have hids := consecutiveUpTo_append hs.ids_consecutive
      simpa [applicationMessages, dataMessage] using hids
    tx_queue_fits := by simpa using hroom
    before_enable := fun hd => by simp [henabled] at hd }

/-! ### The invariant and the receive side -/

/-- What the invariant says of the buffers a received frame fills. -/
structure ReceiveBuffersFit (s : State) : Prop where
  params_wf : s.params.wf = true
  tx_bytes : s.link.txBytes.length ≤ s.params.txBytesCap
  rx_queue : s.link.rxQueue.length ≤ s.params.rxQueueCap
  payloads : ∀ m ∈ s.link.rxQueue, m.wf = true

namespace ReceiveBuffersFit

theorem pushAck {s : State} (hs : ReceiveBuffersFit s) (id : MsgId) : ReceiveBuffersFit (s.pushAck id) := by
  rcases State.pushAck_cases id s with ⟨hroom, h⟩ | ⟨-, h⟩ <;> rw [h]
  · exact { hs with tx_bytes := by simpa [ackMessage] using hroom }
  · exact { hs with }

theorem queueRx {s : State} (hs : ReceiveBuffersFit s) {m : Message} (hm : m.wf = true) :
    ReceiveBuffersFit (s.queueRx m) := by
  rcases State.queueRx_cases m s with ⟨hroom, h⟩ | ⟨-, h⟩ <;> rw [h]
  · exact { hs with
      rx_queue := by simpa using hroom
      payloads := fun k hk => by
        rcases List.mem_append.1 hk with hk | hk
        · exact hs.payloads k hk
        · exact List.mem_singleton.1 hk ▸ hm }
  · exact { hs with }

theorem acceptData {s : State} (hs : ReceiveBuffersFit s) {m : Message} (hm : m.wf = true) :
    ReceiveBuffersFit (s.acceptData m) := by
  rcases State.acceptData_cases m s with ⟨-, h⟩ | ⟨-, h⟩ <;> rw [h]
  · refine queueRx ?_ hm
    exact { hs.pushAck m.msgId with }
  · exact { hs.pushAck m.msgId with }

/-- Running the head that stands there keeps the buffers: a data frame's payload has a legal length. -/
theorem runHead {s : State} (hs : ReceiveBuffersFit s) {h : Head} (hc : classify s.params s.link.rxBytes = some h) :
    ReceiveBuffersFit (s.runHead h) := by
  cases h with
  | data m =>
    obtain ⟨-, -, -, -, -, hmax, -⟩ := Params.wf_iff.1 hs.params_wf
    have hm : m.wf = true := decide_eq_true ((payload_le_of_classify_data hc).trans hmax)
    exact { hs.acceptData hm with }
  | reset m => exact ⟨hs.params_wf, Nat.zero_le _, Nat.zero_le _, nofun⟩
  | _ => exact { hs with }

theorem scan {s : State} (hs : ReceiveBuffersFit s) : ReceiveBuffersFit s.scan :=
  State.scanWithin_keeps (P := ReceiveBuffersFit) (fun _ _ ht hc => ht.runHead hc) _ s hs

theorem bufferByte {s : State} (hs : ReceiveBuffersFit s) (b : Byte) : ReceiveBuffersFit (s.bufferByte b) := by
  rcases State.bufferByte_cases b s with ⟨-, h⟩ | ⟨-, h⟩ <;> rw [h] <;> exact { hs with }

end ReceiveBuffersFit

theorem Inv.receiveBuffersFit {s : State} (hs : Inv s) : ReceiveBuffersFit s :=
  ⟨hs.params_wf, hs.tx_bytes_fit, hs.rx_queue_fits, fun m hm => hs.payloads_wf m (by simp [hm])⟩

/-- A received byte never makes `rx_bytes` too long (41_receive.md R131). -/
theorem State.bufferByte_rxBytes_fit {s : State} (h : s.link.rxBytes.length ≤ s.params.rxBytesCap) (b : Byte) :
    (s.bufferByte b).link.rxBytes.length ≤ s.params.rxBytesCap := by
  rcases State.bufferByte_cases b s with ⟨hroom, he⟩ | ⟨-, he⟩ <;> rw [he]
  · simpa using hroom
  · exact h

/-- A received byte on an enabled link keeps the invariant: the scan resets the link, or leaves the transmit side as it
was, its own buffers within bounds and `rx_bytes` waiting. -/
theorem Inv.receiveByte {s : State} (hs : Inv s) (henabled : s.link.enabled = true) (b : Byte) :
    Inv (s.bufferByte b).scan := by
  have hcontrol := (ControlKept.bufferByte b s).trans (.scan _)
  have hstays : (s.bufferByte b).scan.link.enabled = false → (s.bufferByte b).scan.link = Link.powerOn := fun hd => by
    simp [hcontrol.enabled, henabled] at hd
  have hfit := (hs.receiveBuffersFit.bufferByte b).scan
  rcases (s.bufferByte b).scan_transmitSide with hreset | hscan
  · exact inv_of_resetValues hfit.params_wf { hreset with tx_queue := rfl } (.inl hreset.tx_queue) hstays
  · have hkept := (TransmitSideKept.bufferByte b s).trans hscan
    exact {
      params_wf := hfit.params_wf
      retry_bound := by
        rw [hkept.pending, hkept.retry_count, hcontrol.params]
        exact hs.retry_bound
      rx_waits := State.scan_waits _
      payloads_wf := fun m hm => by
        rw [hkept.tx_queue, hkept.pending] at hm
        have hmem : m ∈ s.link.txQueue ++ s.link.rxQueue ++ s.link.pending.toList ∨
            m ∈ (s.bufferByte b).scan.link.rxQueue := by grind
        exact hmem.elim (hs.payloads_wf m) (hfit.payloads m)
      sent_nonempty := by
        rw [hkept.tx_queue, hkept.pending]
        exact hs.sent_nonempty
      ids_consecutive := by
        rw [hkept.tx_queue, hkept.next_msg_id]
        exact hs.ids_consecutive
      tx_bytes_fit := hfit.tx_bytes
      rx_bytes_fit := by
        rw [hcontrol.params]
        exact (State.scan_rxBytes_suffix _).length_le.trans (State.bufferByte_rxBytes_fit hs.rx_bytes_fit b)
      tx_queue_fits := by
        rw [hkept.tx_queue, hcontrol.params]
        exact hs.tx_queue_fits
      rx_queue_fits := hfit.rx_queue
      before_enable := hstays }

/-- `RX_POP` keeps the invariant; before the first `ENABLE` there is nothing to pop (43_link_control.md R194). -/
theorem Inv.rxPop {s t : State} (hs : Inv s) (h : execRxPop s = .next t) : Inv t := by
  rcases execRxPop_cases h with ⟨-, rfl⟩ | ⟨m, rest, hqueue, rfl⟩
  · exact hs.congr rfl rfl
  have hroom := hs.rx_queue_fits
  rw [hqueue] at hroom
  exact { hs with
    payloads_wf := fun k hk => hs.payloads_wf k (by grind [State.setOut_link, State.setRxQueue_link])
    rx_queue_fits := Nat.le_of_succ_le hroom
    before_enable := fun hd => by simp [hs.before_enable hd, Link.powerOn] at hqueue }

/-! ### Every step -/

/-- Every event keeps the invariant. -/
theorem Inv.exec_event {e : Event} {s t : State} (hs : Inv s) (h : exec e.toInstr s = .next t) : Inv t := by
  cases e with
  | rxByte b =>
    rcases execRxByte_cases h with ⟨-, rfl⟩ | ⟨henabled, rfl⟩
    · exact hs.congr rfl rfl
    · exact (hs.congr (t := s.setOut .none) rfl rfl).receiveByte henabled b
  | txOpp now uartReady => cases h; exact hs.arbitrate now uartReady
  | timer now => cases h; exact (hs.arbitrate now false).congr rfl rfl
  | send cmd data => exact hs.send h
  | enable => cases h; exact inv_of_resetValues hs.params_wf { s.link.cleared_resetValues with } (.inl rfl) nofun
  | rxPop => exact hs.rxPop h
  | status => cases h; exact hs.congr rfl rfl

/-- Settles O51: a step is one event, or nothing. -/
theorem stepKeepsTheInvariant : Obligations.StepKeepsTheInvariant := by
  intro s t hs h
  unfold step at h
  split at h
  · cases h
    exact hs
  next e rest _ => exact (hs.congr (t := s.beginEvent rest) rfl rfl).exec_event h

end Sys2Proof.Machine

/-! PROOFS. The events and the instantiation of one link (20_memory.md): what a step runs (R60, R61), and which parameters
are refused (R55). -/

namespace Sys2Proof

/-- An event has no operand condition: its rule covers every input (60_exceptions.md R205). -/
@[simp] theorem Event.toInstr_wf (e : Event) (p : Params) : e.toInstr.wf p = true := by
  cases e <;> rfl

end Sys2Proof

namespace Sys2Proof.Machine

/-! ### What a step runs (20_memory.md R60, R61) -/

/-- The event at the head of the schedule is taken off and run with the port and the labels cleared. -/
theorem step_of_events_cons {s : State} {e : Event} {rest : List Event} (h : s.events = e :: rest) :
    step s = exec e.toInstr (s.beginEvent rest) := by
  simp only [step, State.nextEvent, h]

/-- With no event the link holds its state (60_exceptions.md R217). -/
theorem step_of_events_nil {s : State} (h : s.events = []) : step s = .next s := by
  simp only [step, State.nextEvent, h]

/-- Settles O50: the schedule has an event at its head, or none. -/
theorem stepRunsTheNextEvent : Obligations.StepRunsTheNextEvent :=
  fun s => ⟨fun e _ h => ⟨e.toInstr_wf s.params, step_of_events_cons h⟩, step_of_events_nil⟩

/-! ### Instantiation (20_memory.md R55, 10_state.md R38) -/

/-- Well-formed parameters give the power-on state. -/
theorem instantiate_of_wf {p : Params} (h : p.wf = true) : instantiate p = .next (State.powerOn p) :=
  if_pos h

/-- All other parameters are refused by name. -/
theorem instantiate_of_not_wf {p : Params} (h : ¬p.wf = true) : instantiate p = .refused .illFormedInstance :=
  if_neg h

/-- Settles O53: each broken constraint contradicts one inequality of a well-formed instance, and all of them together
make the instance well formed. -/
theorem instantiationRefusesSmallBuffers : Obligations.InstantiationRefusesSmallBuffers := by
  intro p
  refine ⟨fun hbroken => instantiate_of_not_wf fun hwf => ?_, fun hbroken => instantiate_of_not_wf fun hwf => ?_,
    fun hrx htx htxq hrxq hmax happ hsend => ?_⟩
  · have hmet := Params.wf_iff.1 hwf
    omega
  · have hmet := Params.wf_iff.1 hwf
    omega
  · have hwf : p.wf = true := Params.wf_iff.2 ⟨hrx, htx, hsend, htxq, hrxq, hmax, by omega⟩
    exact ⟨State.powerOn p, instantiate_of_wf hwf, rfl, Link.powerOn.cleared_resetValues, rfl, rfl, rfl, rfl⟩

end Sys2Proof.Machine

/-! PROOFS. The encoding of a frame (30_encoding.md, 40_codec.md): the bitfield and the checksum field read back what was
written, `decode` on a complete frame (R106), the decision chain of R79 and R75, and the round trip of R75. -/

namespace Sys2Proof

/-! ### The fields of a header read back (30_encoding.md R72, 20_memory.md R56) -/

/-- A one-bit field is its only bit. -/
theorem bit_eq_of_getElem_zero {a b : Bit} (h : a[0] = b[0]) : a = b := by
  ext i hi
  obtain rfl : i = 0 := by omega
  exact h

/-- The four bit fields do not overlap, so each place of the packed byte shows its own field (40_codec.md R104). -/
@[simp] theorem unpackBits_packBits (sender reset ack : Bit) (id : MsgId) :
    unpackBits (packBits sender reset ack id) = (sender, reset, ack, id) := by
  simp only [unpackBits, packBits, Prod.mk.injEq]
  refine ⟨?_, ?_, ?_, ?_⟩
  · exact bit_eq_of_getElem_zero (by simp)
  · exact bit_eq_of_getElem_zero (by simp)
  · exact bit_eq_of_getElem_zero (by simp)
  · ext i hi
    simp (disch := omega) [BitVec.getLsbD_of_ge]

/-- A word is its two bytes, the low one first. -/
@[simp] theorem le16_lowByte_highByte (c : Half) : le16 (lowByte c) (highByte c) = c := by
  ext i hi
  by_cases hlow : i < 8
  · simp [le16, lowByte, highByte, hlow, BitVec.getLsbD_eq_getElem hi]
  · have hbyte : i - 8 < 8 := by omega
    have hplace : 8 + (i - 8) = i := by omega
    simp [le16, lowByte, highByte, hlow, hbyte, hplace, BitVec.getLsbD_eq_getElem hi]

/-! ### `decode` on a complete frame (40_codec.md R106) -/

/-- The message the header and payload fields at the head of a byte sequence spell out, as R106 reads them. -/
def headMessage (s : List Byte) : Message where
  sender := (byteAt s 4).extractLsb' 0 1
  reset := (byteAt s 4).extractLsb' 1 1
  ack := (byteAt s 4).extractLsb' 2 1
  msgId := (byteAt s 4).extractLsb' 3 5
  payload := (s.drop headerLen).take (byteAt s 1).toNat

/-- Once the bytes its length field announces are there, `decode` answers the message they spell out. -/
theorem decodeFrame_of_complete {s : List Byte} (h : headerLen + (byteAt s 1).toNat ≤ s.length) :
    decodeFrame s = .frame (headMessage s) (headerLen + (byteAt s 1).toNat) := by
  have hheader : ¬ s.length < headerLen := by omega
  rw [decodeFrame, if_neg hheader, if_neg (Nat.not_lt.2 h)]
  rfl

/-- The bytes after a complete frame are not read. -/
theorem headMessage_append {f : List Byte} (rest : List Byte) (h : headerLen + (byteAt f 1).toNat ≤ f.length) :
    headMessage (f ++ rest) = headMessage f := by
  have hheader : headerLen = 5 := rfl
  have hlen : byteAt (f ++ rest) 1 = byteAt f 1 := byteAt_append_left rest (by omega)
  have hbits : byteAt (f ++ rest) 4 = byteAt f 4 := byteAt_append_left rest (by omega)
  have hpayload : ((f ++ rest).drop headerLen).take (byteAt f 1).toNat = (f.drop headerLen).take (byteAt f 1).toNat := by
    rw [List.drop_append_of_le_length (by omega), List.take_append_of_le_length (by rw [List.length_drop]; omega)]
  rw [headMessage, hlen, hbits, hpayload, headMessage]

/-- `decode` of the announced bytes alone gives the message of the whole sequence. -/
theorem decodeFrame_take {s : List Byte} (h : headerLen + (byteAt s 1).toNat ≤ s.length) :
    decodeFrame (s.take (headerLen + (byteAt s 1).toNat)) =
      .frame (headMessage s) (headerLen + (byteAt s 1).toNat) := by
  have hheader : headerLen = 5 := rfl
  have hfield : byteAt (s.take (headerLen + (byteAt s 1).toNat)) 1 = byteAt s 1 := byteAt_take (by omega)
  have hcomplete : headerLen + (byteAt (s.take (headerLen + (byteAt s 1).toNat)) 1).toNat ≤
      (s.take (headerLen + (byteAt s 1).toNat)).length := by
    rw [hfield, List.length_take, Nat.min_eq_left h]
  have hmessage := headMessage_append (s.drop (headerLen + (byteAt s 1).toNat)) hcomplete
  rw [List.take_append_drop] at hmessage
  rw [decodeFrame_of_complete hcomplete, hfield, hmessage]

/-! ### The decision chain at the head of a byte sequence (30_encoding.md R79, R75) -/

/-- `checksum_ok` of the announced bytes compares with the checksum field of the sequence (40_codec.md R102). -/
theorem checksumMatches_take_iff {s : List Byte} {n : Nat} :
    checksumMatches (s.take (headerLen + n)) = true ↔
      frameChecksum (s.take (headerLen + n)) = le16 (byteAt s 2) (byteAt s 3) := by
  have hheader : headerLen = 5 := rfl
  rw [checksumMatches, decide_eq_true_eq, storedChecksum, byteAt_take (by omega), byteAt_take (by omega)]

/-- The decisions in the order of the two tables; the kind is read off the message the bytes spell out. -/
theorem classify_of_ne_nil {p : Params} {s : List Byte} (hs : s ≠ []) :
    classify p s =
      if byteAt s 0 ≠ p.magic then some .notMagic
      else if s.length < headerLen then some .incompleteHeader
      else if p.rxMaxPayloadLen < (byteAt s 1).toNat then some .badLen
      else if s.length < headerLen + (byteAt s 1).toNat then some .incompleteFrame
      else if checksumMatches (s.take (headerLen + (byteAt s 1).toNat)) then some (frameKind p (headMessage s))
      else some .badCsum := by
  obtain ⟨b, t, rfl⟩ := List.exists_cons_of_ne_nil hs
  by_cases hframe : (b :: t).length < headerLen + (byteAt (b :: t) 1).toNat
  · simp only [classify, hframe, if_true, byteAt_zero]
  · simp only [classify, hframe, if_false, byteAt_zero, decodeFrame_take (Nat.not_lt.1 hframe)]

/-- The row of a valid frame, first matching condition of 30_encoding.md R75. -/
theorem toInstr_frameKind (p : Params) (m : Message) :
    (frameKind p m).toInstr =
      if m.sender = p.localId then .echoFrame m
      else if m.ack = 1 then .ackFrame m
      else if m.reset = 1 then .resetFrame m
      else .dataFrame m := by
  unfold frameKind
  split_ifs <;> rfl

/-- The decoder gives the row of the head it finds. -/
theorem decodeInstr_of_classify {p : Params} {s : List Byte} {h : Head} (hc : classify p s = some h) :
    decodeInstr p s = .ok h.toInstr := by
  rw [decodeInstr, hc]

/-- A complete frame of a legal length with a valid checksum decodes to the row of its kind (30_encoding.md R75). -/
theorem decodeInstr_of_valid {p : Params} {s : List Byte} (hs : s ≠ []) (hmagic : byteAt s 0 = p.magic)
    (hmax : (byteAt s 1).toNat ≤ p.rxMaxPayloadLen) (hcomplete : headerLen + (byteAt s 1).toNat ≤ s.length)
    (hsum : checksumMatches (s.take (headerLen + (byteAt s 1).toNat)) = true) :
    decodeInstr p s = .ok (frameKind p (headMessage s)).toInstr := by
  refine decodeInstr_of_classify ?_
  rw [classify_of_ne_nil hs, if_neg (not_not.2 hmagic), if_neg (by omega), if_neg (by omega), if_neg (by omega), if_pos hsum]

/-! ### An encoded frame is valid and spells out its message (40_codec.md R112) -/

/-- The length field of an encoded frame holds the payload's length, which fits 8 bits (40_codec.md R105). -/
theorem byteAt_one_encodeFrame {p : Params} {m : Message} (h : m.payload.length ≤ maxPayloadLen) :
    (byteAt (encodeFrame p m) 1).toNat = m.payload.length := by
  have hmax : maxPayloadLen < 2 ^ 8 := by decide
  have hfield : byteAt (encodeFrame p m) 1 = BitVec.ofNat 8 m.payload.length := rfl
  rw [hfield, BitVec.toNat_ofNat, Nat.mod_eq_of_lt (by omega)]

/-- The checksum is computed with its field zeroed, so writing the field does not change it (40_codec.md R100, R105). -/
theorem checksumMatches_encodeFrame (p : Params) (m : Message) : checksumMatches (encodeFrame p m) = true := by
  rw [checksumMatches, decide_eq_true_eq]
  exact (le16_lowByte_highByte _).symm

/-- An encoded frame spells out the message it was made from. -/
theorem headMessage_encodeFrame {p : Params} {m : Message} (h : m.payload.length ≤ maxPayloadLen) :
    headMessage (encodeFrame p m) = m := by
  have hbits := unpackBits_packBits m.sender m.reset m.ack m.msgId
  simp only [unpackBits, Prod.mk.injEq] at hbits
  obtain ⟨hsender, hreset, hack, hid⟩ := hbits
  have hfield : byteAt (encodeFrame p m) 4 = packBits m.sender m.reset m.ack m.msgId := rfl
  have hpayload : (encodeFrame p m).drop headerLen = m.payload := rfl
  rw [headMessage, hfield, hsender, hreset, hack, hid, hpayload, byteAt_one_encodeFrame h, List.take_length]

/-- A receivable message's frame decodes to the row of its kind, whatever bytes follow it. -/
theorem decodeInstr_encodeFrame_append {p : Params} {m : Message} (hm : m.receivable p = true) (rest : List Byte) :
    decodeInstr p (encodeFrame p m ++ rest) = .ok (frameKind p m).toInstr := by
  obtain ⟨hle, hmax⟩ := Message.receivable_iff.1 hm
  have hheader : headerLen = 5 := rfl
  have hlen : (encodeFrame p m).length = headerLen + m.payload.length := encodeFrame_length p m
  have hone := byteAt_one_encodeFrame (p := p) hle
  have hfield : (byteAt (encodeFrame p m ++ rest) 1).toNat = m.payload.length := by
    rw [byteAt_append_left rest (by omega), hone]
  have hmessage : headMessage (encodeFrame p m ++ rest) = m := by
    rw [headMessage_append rest (by omega), headMessage_encodeFrame hle]
  have htake : (encodeFrame p m ++ rest).take (headerLen + m.payload.length) = encodeFrame p m :=
    List.take_left' hlen
  have hvalid := decodeInstr_of_valid (p := p) (s := encodeFrame p m ++ rest)
    (List.append_ne_nil_of_left_ne_nil (encodeFrame_ne_nil p m) rest) rfl (by omega)
    (by rw [hfield, List.length_append, hlen]; omega) (by rw [hfield, htake, checksumMatches_encodeFrame])
  rw [hvalid, hmessage]

/-! ### The three obligations of the encoding -/

/-- Only the four frame rows have bytes; under the conditions of R75 they are the frame of a receivable message whose kind
is the row itself. -/
theorem encodeInstr_eq_some {p : Params} {i : Instr} {bytes : List Byte} (hwf : i.wf p = true)
    (hbytes : encodeInstr p i = some bytes) :
    ∃ m, m.receivable p = true ∧ bytes = encodeFrame p m ∧ (frameKind p m).toInstr = i := by
  cases i with
  | echoFrame m =>
    simp only [Instr.wf, Bool.and_eq_true, decide_eq_true_eq] at hwf
    obtain ⟨hm, hsender⟩ := hwf
    exact ⟨m, hm, (Option.some.inj hbytes).symm, by rw [toInstr_frameKind, if_pos hsender]⟩
  | ackFrame m =>
    simp only [Instr.wf, Bool.and_eq_true, decide_eq_true_eq] at hwf
    obtain ⟨⟨hm, hsender⟩, hack⟩ := hwf
    exact ⟨m, hm, (Option.some.inj hbytes).symm, by rw [toInstr_frameKind, if_neg hsender, if_pos hack]⟩
  | resetFrame m =>
    simp only [Instr.wf, Bool.and_eq_true, decide_eq_true_eq] at hwf
    obtain ⟨⟨⟨hm, hsender⟩, hack⟩, hreset⟩ := hwf
    exact ⟨m, hm, (Option.some.inj hbytes).symm, by simp [toInstr_frameKind, hsender, hack, hreset]⟩
  | dataFrame m =>
    simp only [Instr.wf, Bool.and_eq_true, decide_eq_true_eq] at hwf
    obtain ⟨⟨⟨hm, hsender⟩, hack⟩, hreset⟩ := hwf
    exact ⟨m, hm, (Option.some.inj hbytes).symm, by simp [toInstr_frameKind, hsender, hack, hreset]⟩
  | _ => simp [encodeInstr] at hbytes

/-- Settles O9: the bytes are a receivable message's frame, and that decodes to the row of its kind. -/
theorem frameInstructionsDecodeFromTheirBytes : Obligations.FrameInstructionsDecodeFromTheirBytes := by
  intro p i bytes rest hwf hbytes
  obtain ⟨m, hm, rfl, hkind⟩ := encodeInstr_eq_some hwf hbytes
  rw [decodeInstr_encodeFrame_append hm, hkind]

/-- Settles O10: one case per row, in the order of the tables; past the checksum the kind of the message decides. -/
theorem everyHeadIsClassified : Obligations.EveryHeadIsClassified := by
  intro p s m hm
  change m = headMessage s at hm
  by_cases hnil : s = []
  · rw [if_pos hnil, hnil]
    rfl
  rw [if_neg hnil]
  have hchain := classify_of_ne_nil (p := p) hnil
  by_cases hmagic : byteAt s 0 ≠ p.magic
  · rw [if_pos hmagic] at hchain ⊢
    exact decodeInstr_of_classify hchain
  rw [if_neg hmagic] at hchain ⊢
  by_cases hheader : s.length < 5
  · rw [if_pos hheader] at hchain ⊢
    exact decodeInstr_of_classify hchain
  rw [if_neg hheader] at hchain ⊢
  by_cases hmax : p.rxMaxPayloadLen < (byteAt s 1).toNat
  · rw [if_pos hmax] at hchain ⊢
    exact decodeInstr_of_classify hchain
  rw [if_neg hmax] at hchain ⊢
  by_cases hframe : s.length < 5 + (byteAt s 1).toNat
  · rw [if_pos hframe] at hchain ⊢
    exact decodeInstr_of_classify hchain
  rw [if_neg hframe] at hchain ⊢
  by_cases hsum : frameChecksum (s.take (5 + (byteAt s 1).toNat)) = le16 (byteAt s 2) (byteAt s 3)
  · rw [if_pos (checksumMatches_take_iff.2 hsum), ← hm] at hchain
    rw [if_neg (not_not.2 hsum), decodeInstr_of_classify hchain, toInstr_frameKind]
    split_ifs <;> rfl
  · rw [if_neg (checksumMatches_take_iff.not.2 hsum)] at hchain
    rw [if_pos hsum]
    exact decodeInstr_of_classify hchain

/-- Settles O12: six closed words, each evaluated. -/
theorem writtenOutWordsDecode : Obligations.WrittenOutWordsDecode := by
  unfold Obligations.WrittenOutWordsDecode
  decide

end Sys2Proof

/-! PROOFS. The codec (40_codec.md): the word sum and its fold in closed form (R100, R101), what one changed byte does to them
(R112), the bitfield (R103, R104), `encode` and `decode` (R105, R106), and the discarding of bytes (R107, R108). -/

namespace Sys2Proof

/-! ### Bytes of a changed sequence -/

theorem byteAt_set_self {f : List Byte} {k : Nat} (b : Byte) (h : k < f.length) : byteAt (f.set k b) k = b := by
  simp [byteAt, h]

theorem byteAt_set_ne {f : List Byte} {k i : Nat} (b : Byte) (h : k ≠ i) : byteAt (f.set k b) i = byteAt f i := by
  simp [byteAt, h]

/-! ### Little-endian words (20_memory.md R56) -/

/-- The two bytes of a word do not overlap, so the word is their sum at weights 1 and 256. -/
theorem toNat_word {w : Nat} (hw : 16 ≤ w) (lo hi : Byte) :
    (lo.setWidth w ||| (hi.setWidth w <<< 8)).toNat = lo.toNat + 256 * hi.toNat := by
  have hpow : 2 ^ 16 ≤ 2 ^ w := Nat.pow_le_pow_right (by decide) hw
  have hlo : lo.toNat < 2 ^ 8 := lo.isLt
  have hhi : hi.toNat < 2 ^ 8 := hi.isLt
  have hlow : lo.toNat % 2 ^ w = lo.toNat := Nat.mod_eq_of_lt (by omega)
  have hhigh : hi.toNat % 2 ^ w = hi.toNat := Nat.mod_eq_of_lt (by omega)
  have hshift : hi.toNat <<< 8 % 2 ^ w = hi.toNat <<< 8 := Nat.mod_eq_of_lt (by rw [Nat.shiftLeft_eq]; omega)
  rw [BitVec.toNat_or, BitVec.toNat_shiftLeft, BitVec.toNat_setWidth, BitVec.toNat_setWidth, hlow, hhigh, hshift,
    Nat.or_comm, ← Nat.shiftLeft_add_eq_or_of_lt hlo, Nat.shiftLeft_eq]
  omega

/-- A word determines its two bytes. -/
theorem le16_inj {lo hi lo' hi' : Byte} : le16 lo hi = le16 lo' hi' ↔ lo = lo' ∧ hi = hi' := by
  constructor
  · intro h
    have hsum := congrArg BitVec.toNat h
    rw [le16, le16, toNat_word (Nat.le_refl 16), toNat_word (Nat.le_refl 16)] at hsum
    constructor <;> (apply BitVec.eq_of_toNat_eq; omega)
  · rintro ⟨rfl, rfl⟩
    rfl

/-! ### The checksum field (40_codec.md R100, R102) -/

/-- The checksum is taken with its field zeroed, so what the field holds does not matter. -/
theorem zeroChecksum_set_field {f : List Byte} {k : Nat} (b : Byte) (hk : k = 2 ∨ k = 3) :
    zeroChecksum (f.set k b) = zeroChecksum f := by
  obtain rfl | rfl := hk
  · rw [zeroChecksum, List.set_set, zeroChecksum]
  · rw [zeroChecksum, List.set_comm _ _ (by decide : 3 ≠ 2), List.set_set, zeroChecksum]

/-- A byte outside the field is summed as it is. -/
theorem zeroChecksum_set_of_lt {f : List Byte} {k : Nat} (b : Byte) (hk : 3 < k) :
    zeroChecksum (f.set k b) = (zeroChecksum f).set k b := by
  rw [zeroChecksum, List.set_comm _ _ (by omega : k ≠ 2), List.set_comm _ _ (by omega : k ≠ 3), zeroChecksum]

theorem byteAt_zeroChecksum_of_lt {f : List Byte} {k : Nat} (hk : 3 < k) : byteAt (zeroChecksum f) k = byteAt f k := by
  rw [zeroChecksum, byteAt_set_ne _ (by omega), byteAt_set_ne _ (by omega)]

theorem storedChecksum_set_of_lt {f : List Byte} {k : Nat} (b : Byte) (hk : 3 < k) :
    storedChecksum (f.set k b) = storedChecksum f := by
  rw [storedChecksum, byteAt_set_ne _ (by omega), byteAt_set_ne _ (by omega), storedChecksum]

/-- Changing either byte of the field changes the stored word. -/
theorem storedChecksum_set_field_ne {f : List Byte} {k : Nat} {b : Byte} (hlen : 3 < f.length) (hk : k = 2 ∨ k = 3)
    (hb : b ≠ byteAt f k) : storedChecksum (f.set k b) ≠ storedChecksum f := by
  intro h
  obtain ⟨hlow, hhigh⟩ := le16_inj.1 h
  obtain rfl | rfl := hk
  · exact hb (by rw [← hlow, byteAt_set_self b (by omega)])
  · exact hb (by rw [← hhigh, byteAt_set_self b hlen])

/-! ### The bitfield (40_codec.md R103, R104) -/

/-- The four fields cover the byte, so packing what was read off a byte gives it back. -/
theorem packBits_extract (b : Byte) :
    packBits (b.extractLsb' 0 1) (b.extractLsb' 1 1) (b.extractLsb' 2 1) (b.extractLsb' 3 5) = b := by
  ext i hi
  have hplace : i = 0 ∨ i = 1 ∨ i = 2 ∨ 3 ≤ i := by omega
  obtain rfl | rfl | rfl | hid := hplace
  · simp [packBits, BitVec.getLsbD_eq_getElem]
  · simp [packBits, BitVec.getLsbD_eq_getElem]
  · simp [packBits, BitVec.getLsbD_eq_getElem]
  · have hadd : 3 + (i - 3) = i := by omega
    simp (disch := omega) [packBits, hadd, hid]

/-- The bitfield of an ack (30_encoding.md R77). -/
theorem packBits_ack (sender : Bit) (id : MsgId) :
    packBits sender 0 1 id = 0x04 ||| sender.setWidth 8 ||| (id.setWidth 8 <<< 3) := by
  simp [packBits, BitVec.or_comm]

/-- The bitfield of a reset (30_encoding.md R78). -/
theorem packBits_reset (sender : Bit) : packBits sender 1 0 0 = 0x02 ||| sender.setWidth 8 := by
  simp [packBits, BitVec.or_comm]

theorem byteAt_four_encodeFrame (p : Params) (m : Message) :
    byteAt (encodeFrame p m) 4 = packBits m.sender m.reset m.ack m.msgId := rfl

/-! ### `decode` (40_codec.md R106) -/

/-- Short of the announced bytes, the header among them, `decode` is incomplete. -/
theorem decodeFrame_of_incomplete {s : List Byte} (h : s.length < headerLen + (byteAt s 1).toNat) :
    decodeFrame s = .incomplete := by
  simp only [decodeFrame, if_pos h, ite_self]

/-- `decode` reads an encoded frame back, whatever bytes follow (40_codec.md R106). -/
theorem decodeFrame_encodeFrame_append {p : Params} {m : Message} (h : m.payload.length ≤ maxPayloadLen)
    (rest : List Byte) : decodeFrame (encodeFrame p m ++ rest) = .frame m (headerLen + m.payload.length) := by
  have hlen := encodeFrame_length p m
  have hheader : headerLen = 5 := rfl
  have hone := byteAt_one_encodeFrame (p := p) h
  have hfield : (byteAt (encodeFrame p m ++ rest) 1).toNat = m.payload.length := by
    rw [byteAt_append_left rest (by omega), hone]
  rw [decodeFrame_of_complete (by rw [hfield, List.length_append]; omega), hfield, headMessage_append rest (by omega),
    headMessage_encodeFrame h]

theorem decodeFrame_encodeFrame {p : Params} {m : Message} (h : m.payload.length ≤ maxPayloadLen) :
    decodeFrame (encodeFrame p m) = .frame m (headerLen + m.payload.length) := by
  have happend := decodeFrame_encodeFrame_append (p := p) h []
  rwa [List.append_nil] at happend

end Sys2Proof

namespace Sys2Proof.Machine

/-! ### The word sum (40_codec.md R100, R101) -/

@[simp] theorem wordTotal_nil : wordTotal [] = 0 := rfl

@[simp] theorem wordTotal_singleton (b : Byte) : wordTotal [b] = b.toNat := by
  simp [wordTotal, byteAt]

/-- The first word, and the sum of the words after it. -/
@[simp] theorem wordTotal_cons_cons (lo hi : Byte) (rest : List Byte) :
    wordTotal (lo :: hi :: rest) = lo.toNat + 256 * hi.toNat + wordTotal rest := by
  have hcount : ((lo :: hi :: rest).length + 1) / 2 = (rest.length + 1) / 2 + 1 := by
    rw [List.length_cons, List.length_cons]
    omega
  rw [wordTotal, hcount, List.range_succ_eq_map, List.map_cons, List.map_map, List.sum_cons]
  rfl

/-- Each of the words is at most `0xFFFF`. -/
theorem wordTotal_le (g : List Byte) : wordTotal g ≤ 0xFFFF * ((g.length + 1) / 2) := by
  induction g using List.twoStepInduction with
  | nil => exact Nat.zero_le _
  | singleton b =>
    have hb := b.isLt
    rw [wordTotal_singleton, List.length_singleton]
    omega
  | cons_cons lo hi rest ih _ =>
    have hlo := lo.isLt
    have hhi := hi.isLt
    rw [wordTotal_cons_cons, List.length_cons, List.length_cons]
    omega

/-- R101: 68 bytes are at most 34 words. -/
theorem wordTotal_le_of_length_le {g : List Byte} (h : g.length ≤ 68) : wordTotal g ≤ 0x21FFDE := by
  have hle := wordTotal_le g
  omega

/-- R101: the accumulator holds the word sum exactly while that fits 32 bits. -/
theorem toNat_sumWords (acc : Acc) (g : List Byte) (h : acc.toNat + wordTotal g < 2 ^ 32) :
    (sumWords acc g).toNat = acc.toNat + wordTotal g := by
  induction acc, g using sumWords.induct with
  | case1 acc => rfl
  | case2 acc b =>
    rw [wordTotal_singleton] at h ⊢
    have hb : (b.setWidth 32).toNat = b.toNat := BitVec.toNat_setWidth_of_le (by decide)
    rw [sumWords, BitVec.toNat_add_of_lt (by rwa [hb]), hb]
  | case3 acc lo hi rest ih =>
    rw [wordTotal_cons_cons] at h ⊢
    have hword := toNat_word (w := 32) (by decide) lo hi
    have hadd : (acc + (lo.setWidth 32 ||| (hi.setWidth 32 <<< 8))).toNat = acc.toNat + (lo.toNat + 256 * hi.toNat) := by
      rw [BitVec.toNat_add_of_lt (by rw [hword]; omega), hword]
    rw [sumWords, ih (by rw [hadd]; omega), hadd, Nat.add_assoc]

theorem toNat_sumWords_zero {g : List Byte} (h : g.length ≤ 68) : (sumWords 0 g).toNat = wordTotal g := by
  have hle := wordTotal_le_of_length_le h
  have hzero : (0 : Acc).toNat = 0 := rfl
  rw [toNat_sumWords 0 g (by omega), hzero, Nat.zero_add]

/-! ### The fold and its closed form (40_codec.md R101) -/

theorem toNat_foldOnce (acc : Acc) : (foldOnce acc).toNat = acc.toNat % 65536 + acc.toNat / 65536 := by
  have hacc := acc.isLt
  have hlow : ((acc.extractLsb' 0 16).setWidth 32).toNat = acc.toNat % 65536 := by
    rw [BitVec.toNat_setWidth_of_le (by decide), BitVec.extractLsb'_toNat, Nat.shiftRight_zero]
  have hhigh : ((acc.extractLsb' 16 16).setWidth 32).toNat = acc.toNat / 65536 := by
    rw [BitVec.toNat_setWidth_of_le (by decide), BitVec.extractLsb'_toNat, Nat.shiftRight_eq_div_pow]
    omega
  rw [foldOnce, BitVec.toNat_add_of_lt (by omega), hlow, hhigh]

/-- The loop's test: no carry is left exactly when the value fits 16 bits. -/
theorem carry_eq_zero_iff (acc : Acc) : acc.extractLsb' 16 16 = 0 ↔ acc.toNat ≤ 0xFFFF := by
  have hacc := acc.isLt
  rw [← BitVec.toNat_inj, BitVec.extractLsb'_toNat, Nat.shiftRight_eq_div_pow]
  change acc.toNat / 65536 % 65536 = 0 ↔ _
  omega

theorem foldedTotal_of_le {n : Nat} (h : n ≤ 0xFFFF) : foldedTotal n = n := by
  unfold foldedTotal
  split <;> omega

/-- A fold takes away a multiple of `0xFFFF` and leaves a positive value positive. -/
theorem foldedTotal_fold (n : Nat) : foldedTotal (n % 65536 + n / 65536) = foldedTotal n := by
  unfold foldedTotal
  split <;> split <;> omega

theorem foldedTotal_le (n : Nat) : foldedTotal n ≤ 0xFFFF := by
  unfold foldedTotal
  split <;> omega

theorem foldedTotal_mod (n : Nat) : foldedTotal n % 0xFFFF = n % 0xFFFF := by
  unfold foldedTotal
  split <;> omega

/-- No number of passes changes the closed form. -/
theorem foldedTotal_foldCarries (fuel : Nat) (acc : Acc) :
    foldedTotal (foldCarries fuel acc).toNat = foldedTotal acc.toNat := by
  induction fuel generalizing acc with
  | zero => rfl
  | succ n ih =>
    rw [foldCarries]
    split
    · rfl
    · rw [ih, toNat_foldOnce, foldedTotal_fold]

/-- Two passes end the loop (R101). -/
theorem toNat_foldCarries_two_le (acc : Acc) : (foldCarries 2 acc).toNat ≤ 0xFFFF := by
  have hacc := acc.isLt
  simp only [foldCarries, carry_eq_zero_iff]
  split_ifs with hnone hone
  · exact hnone
  · exact hone
  · rw [toNat_foldOnce] at hone
    rw [toNat_foldOnce, toNat_foldOnce]
    omega

theorem toNat_foldCarries_two (acc : Acc) : (foldCarries 2 acc).toNat = foldedTotal acc.toNat := by
  rw [← foldedTotal_foldCarries 2 acc, foldedTotal_of_le (toNat_foldCarries_two_le acc)]

/-- The checksum of at most 68 bytes is the closed form of their word sum (R101). -/
theorem toNat_frameChecksum {f : List Byte} (h : f.length ≤ 68) :
    (frameChecksum f).toNat = foldedTotal (wordTotal (zeroChecksum f)) := by
  have hzeroed : (zeroChecksum f).length ≤ 68 := by rwa [zeroChecksum_length]
  have hle := foldedTotal_le (wordTotal (zeroChecksum f))
  rw [frameChecksum, BitVec.extractLsb'_toNat, Nat.shiftRight_zero, toNat_foldCarries_two, toNat_sumWords_zero hzeroed,
    Nat.mod_eq_of_lt (by omega)]

/-! ### One changed byte (40_codec.md R112) -/

/-- The weight of the byte at an offset in its little-endian word. -/
def byteWeight (k : Nat) : Nat := if k % 2 = 0 then 1 else 256

theorem byteWeight_zero : byteWeight 0 = 1 := rfl

theorem byteWeight_one : byteWeight 1 = 256 := rfl

theorem byteWeight_add_two (k : Nat) : byteWeight (k + 2) = byteWeight k := by
  rw [byteWeight, Nat.add_mod_right, byteWeight]

/-- Changing one byte changes the word sum by the difference of the bytes, at the weight of the offset. -/
theorem wordTotal_set (b : Byte) : ∀ (g : List Byte) (k : Nat), k < g.length →
    wordTotal (g.set k b) + byteWeight k * (byteAt g k).toNat = wordTotal g + byteWeight k * b.toNat
  | [c], 0, _ => by simp [byteWeight_zero, Nat.add_comm]
  | lo :: hi :: rest, 0, _ => by
    simp only [List.set_cons_zero, wordTotal_cons_cons, byteAt_zero, byteWeight_zero]
    omega
  | lo :: hi :: rest, 1, _ => by
    simp only [List.set_cons_succ, List.set_cons_zero, wordTotal_cons_cons, byteAt_succ, byteAt_zero, byteWeight_one]
    omega
  | lo :: hi :: rest, k + 2, hk => by
    have ih := wordTotal_set b rest k (by simpa using hk)
    rw [List.set_cons_succ, List.set_cons_succ, wordTotal_cons_cons, wordTotal_cons_cons, byteAt_succ, byteAt_succ,
      byteWeight_add_two]
    omega

/-- The difference of two bytes at either weight is no multiple of `0xFFFF`, so a changed byte shows in the sum modulo
`0xFFFF`. -/
theorem wordTotal_set_mod_ne {g : List Byte} {k : Nat} {b : Byte} (hk : k < g.length) (hb : b ≠ byteAt g k) :
    wordTotal (g.set k b) % 0xFFFF ≠ wordTotal g % 0xFFFF := by
  have hset := wordTotal_set b g k hk
  have hnew := b.isLt
  have hold := (byteAt g k).isLt
  have hne : b.toNat ≠ (byteAt g k).toNat := BitVec.toNat_ne.1 hb
  unfold byteWeight at hset
  split at hset <;> omega

/-- A changed byte after the checksum field changes the checksum. -/
theorem frameChecksum_set_ne {f : List Byte} {k : Nat} {b : Byte} (hlen : f.length ≤ 68) (hfield : 3 < k)
    (hk : k < f.length) (hb : b ≠ byteAt f k) : frameChecksum (f.set k b) ≠ frameChecksum f := by
  intro h
  have hnat := congrArg BitVec.toNat h
  rw [toNat_frameChecksum (by rwa [List.length_set]), toNat_frameChecksum hlen, zeroChecksum_set_of_lt b hfield] at hnat
  have hmod := congrArg (· % 0xFFFF) hnat
  simp only [foldedTotal_mod] at hmod
  exact wordTotal_set_mod_ne (by rwa [zeroChecksum_length]) (by rwa [byteAt_zeroChecksum_of_lt hfield]) hmod

/-- In a valid frame any one changed byte from the checksum field on is detected: in the field it changes the stored word
alone, after it the computed word alone. -/
theorem checksumMatches_set_eq_false {f : List Byte} {k : Nat} {b : Byte} (hvalid : checksumMatches f = true)
    (hlen : f.length ≤ 68) (hheader : headerLen ≤ f.length) (htwo : 2 ≤ k) (hk : k < f.length) (hb : b ≠ byteAt f k) :
    checksumMatches (f.set k b) = false := by
  have hfive : headerLen = 5 := rfl
  rw [checksumMatches, decide_eq_true_eq] at hvalid
  rw [checksumMatches, decide_eq_false_iff_not]
  by_cases hfield : 3 < k
  · rw [storedChecksum_set_of_lt b hfield, ← hvalid]
    exact frameChecksum_set_ne hlen hfield hk hb
  · have hplace : k = 2 ∨ k = 3 := by omega
    have hsame : frameChecksum (f.set k b) = frameChecksum f := by
      rw [frameChecksum, zeroChecksum_set_field b hplace, frameChecksum]
    rw [hsame, hvalid]
    exact (storedChecksum_set_field_ne (by omega) hplace hb).symm

/-! ### The obligation of the codec laws (40_codec.md R112) -/

/-- Settles O8: the round trip, the validity of an encoded frame, and the detection of one changed byte in a valid frame. -/
theorem codecLawsAndSingleByteDetection : Obligations.CodecLawsAndSingleByteDetection := by
  intro p m hm
  have hlen : (encodeFrame p m).length = 5 + m.payload.length := encodeFrame_length p m
  have hmax : maxPayloadLen = 63 := rfl
  refine ⟨decodeFrame_encodeFrame hm, checksumMatches_encodeFrame p m, ?_, ?_, ?_⟩
  · intro m' n hdecode
    rw [decodeFrame_encodeFrame hm] at hdecode
    cases hdecode
    rfl
  · intro k b htwo hk hb
    exact checksumMatches_set_eq_false (checksumMatches_encodeFrame p m) (by omega) (hlen ▸ Nat.le_add_right _ _) htwo
      (hlen ▸ hk) hb
  · intro b rest hb
    rw [encodeFrame_eq, List.set_cons_zero, List.cons_append]
    exact decodeInstr_of_classify (classify_notMagic hb)

/-! ### The obligations of the checksum (40_codec.md R100 to R102) -/

/-- Settles O3: the bounds follow from the number of words, the rest from the closed form of the fold. -/
theorem accumulatorBoundAndClosedForm : Obligations.AccumulatorBoundAndClosedForm := by
  intro f hf
  have hzeroed : (zeroChecksum f).length ≤ 68 := by rwa [zeroChecksum_length]
  have htotal := wordTotal_le_of_length_le hzeroed
  have hsum := toNat_sumWords_zero hzeroed
  have hchecksum := toNat_frameChecksum hf
  refine ⟨htotal, hsum, ?_, ?_, ?_, ?_⟩
  · rw [toNat_foldOnce, hsum]
    omega
  · rw [toNat_foldOnce, toNat_foldOnce, hsum]
    omega
  · intro hzero
    apply BitVec.eq_of_toNat_eq
    rw [hchecksum, hzero]
    rfl
  · intro hpos
    rw [foldedTotal, if_neg (by omega)] at hchecksum
    refine ⟨hchecksum, ?_, ?_, ?_⟩ <;> omega

theorem exec_checksum (f : List Byte) (s : State) :
    exec (.checksum f) s = .next { s with out := .half (frameChecksum f) } := rfl

/-- Settles O4: the closed form of the checksum, put on the output port. -/
theorem checksumAnswersFoldedWordSum : Obligations.ChecksumAnswersFoldedWordSum := by
  intro s f _ hf
  have hclosed : frameChecksum f = BitVec.ofNat 16 (foldedTotal (wordTotal (zeroChecksum f))) := by
    rw [← toNat_frameChecksum hf, BitVec.ofNat_toNat, BitVec.setWidth_eq]
  rw [exec_checksum, hclosed, zeroChecksum]

/-- Settles O5: `checksum_ok` is this comparison, put on the output port. -/
theorem checksumOkComparesStoredField : Obligations.ChecksumOkComparesStoredField := by
  intro s f _
  rfl

/-! ### The obligations of `encode` and `decode` -/

/-- Settles O6: the frame's checksum is written into the two bytes left zero for it. -/
theorem encodeWritesHeaderThenPayload : Obligations.EncodeWritesHeaderThenPayload := by
  intro s m _
  exact ⟨encodeFrame s.params m, _, rfl, rfl, encodeFrame_eq s.params m, encodeFrame_length s.params m⟩

theorem exec_decode {bytes : List Byte} {d : Decoded} (h : decodeFrame bytes = d) (s : State) :
    exec (.decode bytes) s = .next { s with out := .decoded d } := by
  rw [← h]
  rfl

/-- Settles O7: both short cases are short of the announced bytes; a complete frame is read, an encoded one read back. -/
theorem decodeReadsFieldsOrIsIncomplete : Obligations.DecodeReadsFieldsOrIsIncomplete := by
  intro s bytes _
  refine ⟨?_, ?_, ?_, ?_⟩
  · intro hheader
    exact exec_decode (decodeFrame_of_incomplete (by omega)) s
  · intro _ hframe
    exact exec_decode (decodeFrame_of_incomplete hframe) s
  · intro hcomplete
    exact exec_decode (decodeFrame_of_complete hcomplete) s
  · rintro m rest hm rfl
    exact exec_decode (decodeFrame_encodeFrame_append hm rest) s

/-! ### The obligations of the bitfield and the control messages (40_codec.md R103, R104, R110, R111) -/

/-- Settles O1: the byte is the packed fields, and reading them back is `unpack_bitfield`. -/
theorem packBitfieldPlacesEveryField : Obligations.PackBitfieldPlacesEveryField := by
  intro s sender reset ack id
  have hread := unpackBits_packBits sender reset ack id
  simp only [unpackBits, Prod.mk.injEq] at hread
  exact ⟨packBits sender reset ack id, rfl, rfl, hread⟩

/-- Settles O2: the answer is the four extractions, and each round trip is the identity. -/
theorem unpackBitfieldInvertsPack : Obligations.UnpackBitfieldInvertsPack :=
  ⟨fun _ _ => rfl, unpackBits_packBits, packBits_extract⟩

/-- Settles O45: the messages are on the output port; with the constant fields packed, the bitfield bytes are as stated. -/
theorem controlMessagesAreBuilt : Obligations.ControlMessagesAreBuilt := by
  intro s id
  refine ⟨rfl, rfl, ?_, ?_⟩
  · rw [byteAt_four_encodeFrame]
    exact packBits_ack s.params.localId id
  · rw [byteAt_four_encodeFrame]
    exact packBits_reset s.params.localId

/-! ### The discarding of bytes (40_codec.md R107, R108) -/

/-- A list without its longest initial run of `q` is empty or starts with an element that is not `q`. -/
theorem dropWhile_eq_nil_or_head {q : Byte → Bool} (l : List Byte) :
    l.dropWhile q = [] ∨ ∃ b, (l.dropWhile q).head? = some b ∧ q b = false := by
  have hhead := List.head?_dropWhile_not q l
  cases hrest : l.dropWhile q with
  | nil => exact .inl rfl
  | cons b t =>
    rw [hrest, List.head?_cons] at hhead
    exact .inr ⟨b, rfl, hhead⟩

/-- Settles O13: the bytes removed are the longest run without `MAGIC` at the head. -/
theorem findHeaderDiscardsUpToMagic : Obligations.FindHeaderDiscardsUpToMagic := by
  intro s
  refine ⟨s.seekHeader, s.link.rxBytes.takeWhile fun b => decide (b ≠ s.params.magic), rfl, ?_, ?_, ?_, rfl⟩
  · exact List.takeWhile_append_dropWhile.symm
  · intro b hb
    exact of_decide_eq_true (List.mem_takeWhile_imp (p := fun b => decide (b ≠ s.params.magic)) hb)
  · refine (dropWhile_eq_nil_or_head s.link.rxBytes).imp_right ?_
    rintro ⟨b, hhead, hb⟩
    rwa [← not_not.1 (of_decide_eq_false hb)]

theorem discardByte_addLabel (v : Label) (s : State) :
    s.discardByte.addLabel v =
      { s with link := { s.link with rxBytes := s.link.rxBytes.drop 1 }, labels := s.labels ++ [v] } := rfl

/-- Settles O14: each verdict discards one byte and appends its own label. -/
theorem discardingVerdictsDropOneByte : Obligations.DiscardingVerdictsDropOneByte := by
  intro s
  refine ⟨?_, ?_, ?_⟩ <;> exact congrArg Host.Outcome.next (discardByte_addLabel _ s)

end Sys2Proof.Machine

/-! PROOFS. The receive side (41_receive.md): one decision at the head of `rx_bytes` (R143), what running each frame leaves
(R135 to R138), the scan as a recursion of its own and as the pseudocode of R130, and runs of `RX_BYTE` events (R131, R144,
R145). -/

namespace Sys2Proof

/-! ### The decoder and the head it finds (30_encoding.md R79) -/

/-- No two heads are the same row of the opcode table. -/
theorem Head.toInstr_injective {h k : Head} (e : h.toInstr = k.toInstr) : h = k := by
  cases h <;> cases k <;> simp_all [Head.toInstr]

/-- The decoder answers exactly the row of the head. -/
theorem decodeInstr_eq_ok {p : Params} {bytes : List Byte} {i : Instr} :
    decodeInstr p bytes = .ok i ↔ ∃ h, classify p bytes = some h ∧ h.toInstr = i := by
  unfold decodeInstr
  split <;> simp_all

theorem ne_nil_of_classify {p : Params} {bytes : List Byte} {h : Head} (hc : classify p bytes = some h) : bytes ≠ [] := by
  rintro rfl
  simp at hc

/-- A head that does not wait is read from bytes that are all there, so the bytes that follow do not change it. -/
theorem classify_append {p : Params} {bytes : List Byte} {h : Head} (more : List Byte) (hc : classify p bytes = some h)
    (hheaderWait : h ≠ .incompleteHeader) (hframeWait : h ≠ .incompleteFrame) : classify p (bytes ++ more) = some h := by
  have hne := ne_nil_of_classify hc
  have hpos := List.length_pos_of_ne_nil hne
  rw [classify_of_ne_nil (List.append_ne_nil_of_left_ne_nil hne more), byteAt_append_left more hpos]
  rw [classify_of_ne_nil hne] at hc
  by_cases hmagic : byteAt bytes 0 ≠ p.magic
  · rwa [if_pos hmagic] at hc ⊢
  rw [if_neg hmagic] at hc ⊢
  by_cases hheader : bytes.length < headerLen
  · rw [if_pos hheader] at hc
    exact absurd (Option.some.inj hc).symm hheaderWait
  have hfive : headerLen = 5 := rfl
  rw [byteAt_append_left more (by omega), List.length_append, if_neg (by omega)]
  rw [if_neg hheader] at hc
  by_cases hmax : p.rxMaxPayloadLen < (byteAt bytes 1).toNat
  · rwa [if_pos hmax] at hc ⊢
  rw [if_neg hmax] at hc ⊢
  by_cases hframe : bytes.length < headerLen + (byteAt bytes 1).toNat
  · rw [if_pos hframe] at hc
    exact absurd (Option.some.inj hc).symm hframeWait
  rw [if_neg hframe] at hc
  rwa [if_neg (by omega), List.take_append_of_le_length (by omega), headMessage_append more (by omega)]

/-- Settles O11: the decoder's answer is the row of a head that does not wait. -/
theorem decisionsStandUnderMoreBytes : Obligations.DecisionsStandUnderMoreBytes := by
  intro p bytes more i hi hheaderWait hframeWait
  obtain ⟨h, hc, rfl⟩ := decodeInstr_eq_ok.1 hi
  refine decodeInstr_of_classify (classify_append more hc ?_ ?_)
  · rintro rfl
    exact hheaderWait rfl
  · rintro rfl
    exact hframeWait rfl

/-! ### The head of an encoded frame, complete or cut short -/

/-- The head of a receivable message's frame is the frame's kind, whatever bytes follow it. -/
theorem classify_encodeFrame_append {p : Params} {m : Message} (hm : m.receivable p = true) (rest : List Byte) :
    classify p (encodeFrame p m ++ rest) = some (frameKind p m) := by
  obtain ⟨h, hc, hkind⟩ := decodeInstr_eq_ok.1 (decodeInstr_encodeFrame_append hm rest)
  rw [hc, Head.toInstr_injective hkind]

/-- A frame that lacks its last bytes waits for them, in its header or after it (41_receive.md R132, R134). -/
theorem classify_of_cut_frame {p : Params} {m : Message} {pre suf : List Byte} (hm : m.receivable p = true)
    (hcut : pre ++ suf = encodeFrame p m) (hpre : pre ≠ []) (hsuf : suf ≠ []) :
    classify p pre = some .incompleteHeader ∨ classify p pre = some .incompleteFrame := by
  obtain ⟨hle, hmax⟩ := Message.receivable_iff.1 hm
  have hfive : headerLen = 5 := rfl
  have hlen := congrArg List.length hcut
  rw [List.length_append, encodeFrame_length] at hlen
  have hprepos := List.length_pos_of_ne_nil hpre
  have hsufpos := List.length_pos_of_ne_nil hsuf
  have hfield {i : Nat} (hi : i < pre.length) : byteAt pre i = byteAt (encodeFrame p m) i := by
    rw [← hcut, byteAt_append_left suf hi]
  have hmagic : byteAt pre 0 = p.magic := hfield hprepos
  rw [classify_of_ne_nil hpre, if_neg (not_not.2 hmagic)]
  by_cases hheader : pre.length < headerLen
  · exact .inl (if_pos hheader)
  · have hone : (byteAt pre 1).toNat = m.payload.length := by
      rw [hfield (by omega), byteAt_one_encodeFrame hle]
    rw [if_neg hheader, hone, if_neg (by omega), if_pos (by omega)]
    exact .inr rfl

/-! ### The kind of a frame (30_encoding.md R75) -/

theorem frameKind_of_ack {p : Params} {m : Message} (hsender : m.sender ≠ p.localId) (hack : m.ack = 1) :
    frameKind p m = .ack m := by
  rw [frameKind, if_neg hsender, if_pos hack]

theorem frameKind_of_reset {p : Params} {m : Message} (hsender : m.sender ≠ p.localId) (hack : m.ack = 0)
    (hreset : m.reset = 1) : frameKind p m = .reset m := by
  simp [frameKind, hsender, hack, hreset]

/-- The conditions of R75 on a data frame: receivable, and of the kind. -/
theorem dataFrame_wf {p : Params} {m : Message} (h : (Instr.dataFrame m).wf p = true) :
    m.receivable p = true ∧ frameKind p m = .data m := by
  simp only [Instr.wf, Bool.and_eq_true, decide_eq_true_eq] at h
  obtain ⟨⟨⟨hm, hsender⟩, hack⟩, hreset⟩ := h
  exact ⟨hm, by simp [frameKind, hsender, hack, hreset]⟩

end Sys2Proof

namespace Sys2Proof.Machine

/-! ### What running a head leaves (41_receive.md R132 to R139) -/

/-- The row of a head is executed by running the head. -/
theorem exec_toInstr (h : Head) (s : State) : exec h.toInstr s = .next (s.runHead h) := by
  cases h <;> rfl

/-- Removing a frame's bytes leaves what follows them. -/
theorem rbDrop_encodeFrame_append (p : Params) (m : Message) (rest : List Byte) :
    rbDrop (encodeFrame p m ++ rest) (frameLength m) = rest :=
  List.drop_left' (encodeFrame_length p m)

theorem State.consumeFrame_eq {s : State} {m : Message} {rest : List Byte}
    (hrx : s.link.rxBytes = encodeFrame s.params m ++ rest) : s.consumeFrame m = s.setRxBytes rest := by
  rw [State.consumeFrame, hrx, rbDrop_encodeFrame_append]

/-- What a data frame leaves of the link: the ack pushed or dropped, the message queued where it is novel and there is room,
the frame's bytes removed (41_receive.md R138, R139). -/
def Link.withData (p : Params) (m : Message) (l : Link) : Link :=
  { l with
    txBytes :=
      if l.txBytes.length + (encodeFrame p (ackMessage p m.msgId)).length ≤ p.txBytesCap then
        l.txBytes ++ encodeFrame p (ackMessage p m.msgId)
      else l.txBytes
    stAckDropped :=
      if l.txBytes.length + (encodeFrame p (ackMessage p m.msgId)).length ≤ p.txBytesCap then l.stAckDropped else true
    lastReceivedId := some m.msgId
    rxQueue :=
      if l.lastReceivedId ≠ some m.msgId ∧ l.rxQueue.length < p.rxQueueCap then l.rxQueue ++ [m] else l.rxQueue
    stRxqDropped :=
      if l.lastReceivedId ≠ some m.msgId ∧ p.rxQueueCap ≤ l.rxQueue.length then true else l.stRxqDropped
    rxBytes := rbDrop l.rxBytes (frameLength m) }

/-- The ack's two cases as one record: the ring and the flag. -/
theorem State.pushAck_eq (id : MsgId) (s : State) :
    s.pushAck id = { s with link := { s.link with
      txBytes :=
        if s.link.txBytes.length + (encodeFrame s.params (ackMessage s.params id)).length ≤ s.params.txBytesCap then
          s.link.txBytes ++ encodeFrame s.params (ackMessage s.params id)
        else s.link.txBytes
      stAckDropped :=
        if s.link.txBytes.length + (encodeFrame s.params (ackMessage s.params id)).length ≤ s.params.txBytesCap then
          s.link.stAckDropped
        else true } } := by
  have hlen : (encodeFrame s.params (ackMessage s.params id)).length = headerLen := encodeFrame_length _ _
  rcases State.pushAck_cases id s with ⟨hfits, h⟩ | ⟨hfull, h⟩
  · rw [h, hlen, if_pos hfits, if_pos hfits]
    rfl
  · rw [h, hlen, if_neg (by omega), if_neg (by omega)]
    rfl

/-- The queue's two cases as one record: the queue and the flag. -/
theorem State.queueRx_eq (m : Message) (s : State) :
    s.queueRx m = { s with link := { s.link with
      rxQueue := if s.link.rxQueue.length < s.params.rxQueueCap then s.link.rxQueue ++ [m] else s.link.rxQueue
      stRxqDropped := if s.params.rxQueueCap ≤ s.link.rxQueue.length then true else s.link.stRxqDropped } } := by
  rcases State.queueRx_cases m s with ⟨hroom, h⟩ | ⟨hfull, h⟩
  · rw [h, if_pos hroom, if_neg (by omega)]
    rfl
  · rw [h, if_neg (by omega), if_pos hfull]
    rfl

/-- The whole next state of a data frame: novel or a duplicate, the ack and the queue each by its own condition. -/
theorem State.runHead_data (m : Message) (s : State) :
    s.runHead (.data m) = { s with
      link := s.link.withData s.params m
      labels := s.labels ++ [if s.link.lastReceivedId ≠ some m.msgId then .novel m.msgId else .dup m.msgId] } := by
  rcases State.acceptData_cases m s with ⟨hnovel, h⟩ | ⟨hdup, h⟩
  · simp only [State.runHead, h, State.queueRx_eq, State.pushAck_eq, Link.withData, hnovel, ne_eq, not_false_eq_true,
      true_and, if_true]
    rfl
  · simp only [State.runHead, h, State.pushAck_eq, Link.withData, hdup, ne_eq, not_true_eq_false, false_and, if_false]
    rw [← hdup]
    rfl

/-! ### The obligations of one frame or verdict -/

/-- Settles O15: waiting appends its label. -/
theorem waitingVerdictsKeepEverything : Obligations.WaitingVerdictsKeepEverything :=
  fun _ => ⟨rfl, rfl⟩

/-- Settles O16: the sender bit decides before the other bits, and the frame's bytes are removed. -/
theorem echoIsOnlyConsumed : Obligations.EchoIsOnlyConsumed := by
  intro s m rest hm hsender hrx
  have hkind : frameKind s.params m = .echo m := if_pos hsender
  refine ⟨hrx ▸ decodeInstr_of_classify (hkind ▸ classify_encodeFrame_append hm rest), ?_⟩
  exact congrArg Host.Outcome.next (State.consumeFrame_eq (s := s.addLabel .echo) hrx)

/-- Settles O17: the ack bit decides before the reset bit; the id is recorded and the frame's bytes are removed. -/
theorem ackFrameRecordsItsId : Obligations.AckFrameRecordsItsId := by
  intro s m rest hm hsender hack hrx
  have hkind : frameKind s.params m = .ack m := frameKind_of_ack hsender hack
  refine ⟨hrx ▸ decodeInstr_of_classify (hkind ▸ classify_encodeFrame_append hm rest), ?_⟩
  exact congrArg Host.Outcome.next
    (State.consumeFrame_eq (s := (s.setPeerAck (some m.msgId)).addLabel (.ackRx m.msgId)) hrx)

/-- Settles O19: the whole next state of a data frame, with the frame's bytes at the head removed. -/
theorem dataFrameIsAckedAndQueued : Obligations.DataFrameIsAckedAndQueued := by
  rintro s m _ rest hwf hrx rfl
  obtain ⟨hm, hkind⟩ := dataFrame_wf hwf
  refine ⟨hrx ▸ decodeInstr_of_classify (hkind ▸ classify_encodeFrame_append hm rest), ?_⟩
  refine (exec_toInstr (.data m) s).trans (congrArg Host.Outcome.next ?_)
  rw [State.runHead_data, Link.withData, hrx, rbDrop_encodeFrame_append]
  rfl

/-- Settles O27: the two cases of `QPop`. -/
theorem rxPopReturnsTheOldest : Obligations.RxPopReturnsTheOldest := by
  intro s
  obtain ⟨t, ht⟩ := execRxPop_completes s
  have hexec : exec .rxPop s = .next t := ht
  rw [hexec]
  rcases execRxPop_cases ht with ⟨hempty, rfl⟩ | ⟨m, rest, hqueue, rfl⟩
  · exact ⟨fun _ _ h => by simp [hempty] at h, fun _ => rfl⟩
  · refine ⟨fun _ _ h => ?_, fun h => by simp [hqueue] at h⟩
    obtain ⟨rfl, rfl⟩ := List.cons.inj (hqueue.symm.trans h)
    rfl

/-! ### The scan as a recursion of its own (41_receive.md R130) -/

/-- A head at which the scan goes on leaves fewer bytes. -/
theorem State.runHead_rxBytes_lt {h : Head} {s : State} (hc : classify s.params s.link.rxBytes = some h)
    (hgoes : stopsScan h = false) : (s.runHead h).link.rxBytes.length < s.link.rxBytes.length := by
  obtain ⟨k, hk, hpos⟩ := State.runHead_rxBytes h s
  have hne := List.length_pos_of_ne_nil (ne_nil_of_classify hc)
  have hkpos := hpos hgoes
  rw [hk, List.length_drop]
  omega

/-- Any two bounds of more passes than bytes give the same scan. -/
theorem State.scanWithin_eq_of_lt {n k : Nat} {s : State} (hn : s.link.rxBytes.length < n)
    (hk : s.link.rxBytes.length < k) : s.scanWithin n = s.scanWithin k := by
  induction n generalizing k s with
  | zero => omega
  | succ n ih =>
    cases k with
    | zero => omega
    | succ k =>
      cases hc : classify s.params s.link.rxBytes with
      | none => simp only [State.scanWithin_succ, hc]
      | some h =>
        cases hstop : stopsScan h with
        | true => simp only [State.scanWithin_succ, hc, hstop, if_true]
        | false =>
          have hlt := State.runHead_rxBytes_lt hc hstop
          simpa only [State.scanWithin_succ, hc, hstop, Bool.false_eq_true, if_false] using
            ih (by omega) (by omega)

theorem State.scan_of_nil {s : State} (h : s.link.rxBytes = []) : s.scan = s := by
  simp only [State.scan, State.scanWithin_succ, h, classify_nil]

theorem State.scan_of_stops {s : State} {h : Head} (hc : classify s.params s.link.rxBytes = some h)
    (hstop : stopsScan h = true) : s.scan = s.runHead h := by
  simp only [State.scan, State.scanWithin_succ, hc, hstop, if_true]

/-- Where the scan goes on, it is the scan of what the head leaves. -/
theorem State.scan_of_goes {s : State} {h : Head} (hc : classify s.params s.link.rxBytes = some h)
    (hgoes : stopsScan h = false) : s.scan = (s.runHead h).scan := by
  have hlt := State.runHead_rxBytes_lt hc hgoes
  have hpass : s.scan = (s.runHead h).scanWithin s.link.rxBytes.length := by
    simp only [State.scan, State.scanWithin_succ, hc, hgoes, Bool.false_eq_true, if_false]
  exact hpass.trans (State.scanWithin_eq_of_lt hlt (Nat.lt_succ_self _))

/-- The heads at which the scan stops, as rows of the opcode table. -/
theorem stopsScan_iff {h : Head} :
    stopsScan h = true ↔
      h.toInstr = .incompleteHeader ∨ h.toInstr = .incompleteFrame ∨ ∃ m, h.toInstr = .resetFrame m := by
  cases h <;> simp [stopsScan, Head.toInstr]

/-- Settles O20: the row decoded is the row of the head, and the scan stops or goes on by that head. -/
theorem scanRunsTheDecodedInstruction : Obligations.ScanRunsTheDecodedInstruction := by
  intro s i hi
  obtain ⟨h, hc, rfl⟩ := decodeInstr_eq_ok.1 hi
  refine ⟨s.runHead h, exec_toInstr h s, fun hstop => ?_, fun hheader hframe hreset => ?_⟩
  · exact congrArg Host.Outcome.next (State.scan_of_stops hc (stopsScan_iff.2 hstop))
  · have hgoes : stopsScan h = false := by
      rw [Bool.eq_false_iff, Ne, stopsScan_iff]
      rintro (he | he | ⟨m, he⟩)
      · exact hheader he
      · exact hframe he
      · exact hreset m he
    exact ⟨(s.runHead h).scan, rfl, congrArg Host.Outcome.next (State.scan_of_goes hc hgoes)⟩

/-- Settles O18: a reset frame's head stops the scan, and what it leaves is the cleared link record. -/
theorem resetFrameResetsAndStops : Obligations.ResetFrameResetsAndStops := by
  intro s m rest hm hsender hack hreset hrx
  have hc : classify s.params s.link.rxBytes = some (.reset m) := by
    rw [hrx, classify_encodeFrame_append hm, frameKind_of_reset hsender hack hreset]
  exact ⟨s.runHead (.reset m), exec_toInstr (.reset m) s, congrArg Host.Outcome.next (State.scan_of_stops hc rfl),
    s.link.cleared_resetValues, rfl, rfl, rfl, rfl, rfl, rfl, rfl, rfl⟩

/-! ### The scan and `find_header` (40_codec.md R107) -/

@[simp] theorem State.seekHeader_params (s : State) : s.seekHeader.params = s.params := rfl

/-- `find_header` leaves no byte, or `MAGIC` at the head. -/
theorem State.seekHeader_head (s : State) :
    s.seekHeader.link.rxBytes = [] ∨ s.seekHeader.link.rxBytes.head? = some s.seekHeader.params.magic := by
  refine (dropWhile_eq_nil_or_head s.link.rxBytes).imp_right ?_
  rintro ⟨b, hhead, hb⟩
  exact hhead.trans (congrArg some (not_not.1 (of_decide_eq_false hb)))

theorem State.seekHeader_rxBytes_length_le (s : State) : s.seekHeader.link.rxBytes.length ≤ s.link.rxBytes.length :=
  (List.dropWhile_suffix _).length_le

theorem State.seekHeader_of_nil {s : State} (hrx : s.link.rxBytes = []) : s.seekHeader = s := by
  apply State.ext_fields <;> simp [State.seekHeader, hrx]
  simp [← hrx]

theorem State.seekHeader_of_magic {s : State} {t : List Byte} (hrx : s.link.rxBytes = s.params.magic :: t) :
    s.seekHeader = s := by
  apply State.ext_fields <;> simp [State.seekHeader, hrx]
  simp [← hrx]

/-- Discarding the bytes before the header is discarding the first of them and then the others. -/
theorem State.seekHeader_of_notMagic {s : State} {b : Byte} {t : List Byte} (hrx : s.link.rxBytes = b :: t)
    (hb : b ≠ s.params.magic) : s.seekHeader = (s.runHead .notMagic).seekHeader := by
  apply State.ext_fields <;> simp [State.seekHeader, State.runHead, State.discardByte, rbDrop, hrx, hb]

/-- The passes that discard a byte that is no `MAGIC` are together `find_header`. -/
theorem State.scan_seekHeader (s : State) : s.seekHeader.scan = s.scan := by
  generalize hrx : s.link.rxBytes = rx
  induction rx generalizing s with
  | nil => rw [State.seekHeader_of_nil hrx]
  | cons b t ih =>
    by_cases hb : b = s.params.magic
    · rw [State.seekHeader_of_magic (hb ▸ hrx)]
    · have hc : classify s.params s.link.rxBytes = some .notMagic := hrx ▸ classify_notMagic hb
      have hrest : (s.runHead .notMagic).link.rxBytes = t := by
        rw [State.runHead, State.addLabel_link, State.discardByte, hrx]
        rfl
      rw [State.seekHeader_of_notMagic hrx hb, ih _ hrest, State.scan_of_goes hc rfl]

/-! ### The pseudocode (41_receive.md R130) -/

/-- A frame's bytes are as many as its message says. -/
theorem frameLength_headMessage {rx : List Byte} (h : headerLen + (byteAt rx 1).toNat ≤ rx.length) :
    frameLength (headMessage rx) = headerLen + (byteAt rx 1).toNat := by
  rw [frameLength, headMessage, List.length_take, List.length_drop]
  omega

theorem scanPseudocode_of_nil {s : State} (fuel : Nat) (h : s.seekHeader.link.rxBytes = []) :
    scanPseudocode (fuel + 1) s = s.seekHeader := by
  simp [scanPseudocode, h, headerLen]

/-- One pass of the pseudocode after `find_header` runs the head decoded there, and goes on unless that stops the scan:
line by line, the decisions are those of the decoder. -/
theorem scanPseudocode_of_classify {s : State} {h : Head} (fuel : Nat)
    (hhead : s.seekHeader.link.rxBytes.head? = some s.seekHeader.params.magic)
    (hc : classify s.seekHeader.params s.seekHeader.link.rxBytes = some h) :
    scanPseudocode (fuel + 1) s =
      if stopsScan h then s.seekHeader.runHead h else scanPseudocode fuel (s.seekHeader.runHead h) := by
  rw [scanPseudocode]
  generalize s.seekHeader = u at hhead hc ⊢
  have hne := ne_nil_of_classify hc
  obtain ⟨t, ht⟩ := List.head?_eq_some_iff.1 hhead
  have hmagic : byteAt u.link.rxBytes 0 = u.params.magic := by rw [ht, byteAt_zero]
  rw [classify_of_ne_nil hne, if_neg (not_not.2 hmagic)] at hc
  by_cases hheader : u.link.rxBytes.length < headerLen
  · rw [if_pos hheader] at hc
    cases hc
    exact (if_pos hheader).trans (if_neg hne)
  rw [if_neg hheader] at hc
  refine (if_neg hheader).trans ?_
  by_cases hmax : u.params.rxMaxPayloadLen < (byteAt u.link.rxBytes 1).toNat
  · rw [if_pos hmax] at hc
    cases hc
    exact if_pos hmax
  rw [if_neg hmax] at hc
  refine (if_neg hmax).trans ?_
  by_cases hframe : u.link.rxBytes.length < headerLen + (byteAt u.link.rxBytes 1).toNat
  · rw [if_pos hframe] at hc
    cases hc
    exact if_pos hframe
  rw [if_neg hframe] at hc
  refine (if_neg hframe).trans ?_
  by_cases hsum : checksumMatches (u.link.rxBytes.take (headerLen + (byteAt u.link.rxBytes 1).toNat))
  · rw [if_pos hsum] at hc
    cases hc
    have hcomplete := Nat.le_of_not_lt hframe
    simp only [hsum, decodeFrame_take hcomplete, Bool.true_eq_false, if_false]
    rw [← frameLength_headMessage hcomplete]
    rcases frameKind_cases u.params (headMessage u.link.rxBytes) with
      ⟨hsender, he⟩ | ⟨hsender, hack, he⟩ | ⟨hsender, hack, hreset, he⟩ | ⟨hsender, hack, hreset, he⟩
    · rw [he, if_pos hsender]
      rfl
    · rw [he, if_neg hsender, if_pos hack]
      rfl
    · rw [he, if_neg hsender, if_neg hack, if_pos hreset]
      rfl
    · rw [he, if_neg hsender, if_neg hack, if_neg hreset, State.runHead, State.consumeFrame, State.acceptData_rxBytes]
      rfl
  · rw [if_neg hsum] at hc
    cases hc
    exact if_pos (Bool.eq_false_iff.2 hsum)

/-- With more passes than bytes the pseudocode gives the scan. -/
theorem scanPseudocode_eq_scan {fuel : Nat} {s : State} (hfuel : s.link.rxBytes.length < fuel) :
    scanPseudocode fuel s = s.scan := by
  induction fuel generalizing s with
  | zero => omega
  | succ n ih =>
    have hle := s.seekHeader_rxBytes_length_le
    rw [← s.scan_seekHeader]
    rcases s.seekHeader_head with hnil | hhead
    · rw [scanPseudocode_of_nil n hnil, State.scan_of_nil hnil]
    · cases hc : classify s.seekHeader.params s.seekHeader.link.rxBytes with
      | none => simp [classify_eq_none.1 hc] at hhead
      | some h =>
        rw [scanPseudocode_of_classify n hhead hc]
        cases hstop : stopsScan h with
        | true => exact (State.scan_of_stops hc hstop).symm
        | false =>
          have hlt := State.runHead_rxBytes_lt hc hstop
          exact (ih (by omega)).trans (State.scan_of_goes hc hstop).symm

/-- Settles O21: the bound R130 names is more than the bytes, so the pseudocode is the scan. -/
theorem scanIsThePseudocode : Obligations.ScanIsThePseudocode :=
  fun _ _ hfuel => congrArg Host.Outcome.next (scanPseudocode_eq_scan hfuel).symm

/-! ### The event `RX_BYTE` (41_receive.md R131) -/

/-- On an enabled link the byte is buffered, whatever the output port held, and the scan runs. -/
theorem exec_rxByte_of_enabled {s : State} (b : Byte) (henabled : s.link.enabled = true) :
    exec (.rxByte b) s = .next ((s.setOut .none).bufferByte b).scan :=
  if_pos henabled

theorem exec_rxByte_of_disabled {s : State} (b : Byte) (hdisabled : s.link.enabled = false) :
    exec (.rxByte b) s = .next (s.setOut .none) :=
  if_neg (by simp [hdisabled])

theorem State.bufferByte_of_room {s : State} (b : Byte) (hroom : s.link.rxBytes.length < s.params.rxBytesCap) :
    s.bufferByte b = s.setRxBytes (s.link.rxBytes ++ [b]) := by
  rcases State.bufferByte_cases b s with ⟨-, h⟩ | ⟨hfull, -⟩
  · exact h
  · omega

theorem State.bufferByte_of_full {s : State} (b : Byte) (hfull : s.params.rxBytesCap ≤ s.link.rxBytes.length) :
    s.bufferByte b = s.setRxOverrun true := by
  rcases State.bufferByte_cases b s with ⟨hroom, -⟩ | ⟨-, h⟩
  · omega
  · exact h

/-- Settles O23: the byte is buffered or lost by the room in `rx_bytes`, and the scan runs on what that leaves. -/
theorem rxBytePushesThenScans : Obligations.RxBytePushesThenScans := by
  intro s b
  refine ⟨exec_rxByte_of_disabled b, fun henabled hroom => ⟨_, rfl, ?_⟩, fun henabled hfull => ⟨_, rfl, ?_⟩⟩
  · rw [exec_rxByte_of_enabled b henabled, State.bufferByte_of_room (s := s.setOut .none) b hroom]
    rfl
  · rw [exec_rxByte_of_enabled b henabled, State.bufferByte_of_full (s := s.setOut .none) b hfull]
    rfl

/-! ### Exactly one frame in `rx_bytes` -/

/-- Running a frame that does not stop the scan removes exactly the frame's bytes (41_receive.md R139). -/
theorem State.runHead_frameKind_rxBytes {p : Params} {m : Message} {s : State} {rest : List Byte}
    (hgoes : stopsScan (frameKind p m) = false) (hrx : s.link.rxBytes = encodeFrame p m ++ rest) :
    (s.runHead (frameKind p m)).link.rxBytes = rest := by
  have hdrop : rbDrop s.link.rxBytes (frameLength m) = rest := hrx ▸ rbDrop_encodeFrame_append p m rest
  rcases frameKind_cases p m with ⟨-, he⟩ | ⟨-, -, he⟩ | ⟨-, -, -, he⟩ | ⟨-, -, -, he⟩ <;> rw [he] at hgoes ⊢
  · exact hdrop
  · exact hdrop
  · exact nomatch hgoes
  · rw [State.runHead_data]
    exact hdrop

/-- The scan of exactly one frame runs the frame: nothing is left behind it. -/
theorem State.scan_of_frame {s : State} {m : Message} (hm : m.receivable s.params = true)
    (hrx : s.link.rxBytes = encodeFrame s.params m) : s.scan = s.runHead (frameKind s.params m) := by
  have hrest : s.link.rxBytes = encodeFrame s.params m ++ [] := by rw [hrx, List.append_nil]
  have hc : classify s.params s.link.rxBytes = some (frameKind s.params m) :=
    hrest ▸ classify_encodeFrame_append hm []
  cases hstop : stopsScan (frameKind s.params m) with
  | true => exact State.scan_of_stops hc hstop
  | false => rw [State.scan_of_goes hc hstop, State.scan_of_nil (State.runHead_frameKind_rxBytes hstop hrest)]

/-- The last byte of a frame completes the frame in `rx_bytes`, where a frame fits. -/
theorem State.bufferByte_of_last {s : State} {m : Message} {b : Byte}
    (hcap : headerLen + m.payload.length ≤ s.params.rxBytesCap)
    (hlast : s.link.rxBytes ++ [b] = encodeFrame s.params m) :
    s.bufferByte b = s.setRxBytes (encodeFrame s.params m) := by
  have hlen := congrArg List.length hlast
  rw [List.length_append, List.length_singleton, encodeFrame_length] at hlen
  rw [State.bufferByte_of_room b (by omega), hlast]

/-- Settles O24: the last byte completes the frame in `rx_bytes`, and the scan of exactly one frame runs it. -/
theorem lastByteRunsTheFrame : Obligations.LastByteRunsTheFrame := by
  intro s m b henabled hm hcap hlast
  refine ⟨(frameKind s.params m).toInstr, ?_, ?_⟩
  · exact List.append_nil (encodeFrame s.params m) ▸ decodeInstr_encodeFrame_append hm []
  · have hscan := State.scan_of_frame (s := (s.setOut .none).setRxBytes (encodeFrame s.params m)) hm rfl
    rw [exec_rxByte_of_enabled b henabled, State.bufferByte_of_last (s := s.setOut .none) hcap hlast, exec_toInstr]
    exact congrArg Host.Outcome.next hscan

/-! ### What a received byte leaves but for the ports -/

/-- Two states with the same parameters and the same link; the schedule, the output port and the labels may differ. -/
structure SameLink (s t : State) : Prop where
  params : s.params = t.params
  link : s.link = t.link

namespace SameLink

theorem refl (s : State) : SameLink s s := ⟨rfl, rfl⟩

theorem trans {s t u : State} (h : SameLink s t) (k : SameLink t u) : SameLink s u :=
  ⟨h.params.trans k.params, h.link.trans k.link⟩

/-- Running a head reads neither the schedule nor the ports. -/
theorem runHead {s t : State} (h : SameLink s t) (head : Head) : SameLink (s.runHead head) (t.runHead head) := by
  obtain ⟨p, l, _, _, _⟩ := s
  obtain ⟨_, _, _, _, _⟩ := t
  obtain ⟨rfl, rfl⟩ := h
  cases head with
  | data m =>
    rw [State.runHead_data, State.runHead_data]
    exact ⟨rfl, rfl⟩
  | _ => exact ⟨rfl, rfl⟩

theorem bufferByte {s t : State} (h : SameLink s t) (b : Byte) : SameLink (s.bufferByte b) (t.bufferByte b) := by
  rcases State.bufferByte_cases b s with ⟨hroom, he⟩ | ⟨hfull, he⟩ <;> rw [he]
  · rw [State.bufferByte_of_room b (h.params ▸ h.link ▸ hroom), ← h.link]
    exact ⟨h.params, by rw [State.setRxBytes_link, State.setRxBytes_link, h.link]⟩
  · rw [State.bufferByte_of_full b (h.params ▸ h.link ▸ hfull)]
    exact ⟨h.params, by rw [State.setRxOverrun_link, State.setRxOverrun_link, h.link]⟩

theorem scanWithin {s t : State} (h : SameLink s t) (fuel : Nat) : SameLink (s.scanWithin fuel) (t.scanWithin fuel) := by
  induction fuel generalizing s t with
  | zero => exact h
  | succ n ih =>
    have hsame : classify t.params t.link.rxBytes = classify s.params s.link.rxBytes := by rw [h.params, h.link]
    cases hc : classify s.params s.link.rxBytes with
    | none => simpa only [State.scanWithin_succ, hsame, hc] using h
    | some head =>
      cases hstop : stopsScan head with
      | true => simpa only [State.scanWithin_succ, hsame, hc, hstop, if_true] using h.runHead head
      | false =>
        simpa only [State.scanWithin_succ, hsame, hc, hstop, Bool.false_eq_true, if_false] using ih (h.runHead head)

theorem scan {s t : State} (h : SameLink s t) : SameLink s.scan t.scan := by
  rw [State.scan, State.scan, ← h.link]
  exact h.scanWithin _

/-- An event begins with the schedule and the ports cleared, so its step is the same. -/
theorem after_eq {s t : State} (h : SameLink s t) (e : Event) : s.after e = t.after e := by
  have hbegin : (s.setEvents [e]).beginEvent [] = (t.setEvents [e]).beginEvent [] :=
    State.ext_fields h.params h.link rfl rfl rfl
  have hstep : step (s.setEvents [e]) = step (t.setEvents [e]) := by
    rw [step_setEvents_cons, step_setEvents_cons, hbegin]
  obtain ⟨u, hu⟩ := step_presented_completes e [] t
  simp only [State.after, hstep, hu]

/-- The same bytes received on links that are the same leave links that are the same. -/
theorem receiveAll {s t : State} (h : SameLink s t) (bytes : List Byte) :
    SameLink (s.receiveAll bytes) (t.receiveAll bytes) := by
  cases bytes with
  | nil => exact h
  | cons b rest =>
    have hfirst : s.receiveAll (b :: rest) = t.receiveAll (b :: rest) :=
      congrArg (fun u : State => u.receiveAll rest) (h.after_eq (.rxByte b))
    exact hfirst ▸ refl _

end SameLink

/-! ### Runs of received bytes (30_encoding.md R82) -/

theorem State.receiveAll_nil (s : State) : s.receiveAll [] = s := rfl

theorem State.receiveAll_cons (b : Byte) (rest : List Byte) (s : State) :
    s.receiveAll (b :: rest) = (s.after (.rxByte b)).receiveAll rest := rfl

theorem State.receiveAll_append (first rest : List Byte) (s : State) :
    s.receiveAll (first ++ rest) = (s.receiveAll first).receiveAll rest := by
  induction first generalizing s with
  | nil => rfl
  | cons b first ih => exact ih (s.after (.rxByte b))

/-- On an enabled link a received byte leaves what buffering it and scanning leave, but for the ports. -/
theorem State.after_rxByte {s : State} (b : Byte) (henabled : s.link.enabled = true) :
    SameLink (s.after (.rxByte b)) (s.bufferByte b).scan := by
  have hstep : step (s.setEvents [.rxByte b]) =
      .next ((((s.setEvents [.rxByte b]).beginEvent []).setOut .none).bufferByte b).scan :=
    exec_rxByte_of_enabled (s := (s.setEvents [.rxByte b]).beginEvent []) b henabled
  have hafter : s.after (.rxByte b) =
      ((((s.setEvents [.rxByte b]).beginEvent []).setOut .none).bufferByte b).scan := by
    simp only [State.after, hstep]
  have hbegin : SameLink (((s.setEvents [.rxByte b]).beginEvent []).setOut .none) s := ⟨rfl, rfl⟩
  exact hafter ▸ (hbegin.bufferByte b).scan

/-- `rx_bytes` written with what it holds changes nothing. -/
theorem State.setRxBytes_sameLink {s : State} {q : List Byte} (hrx : s.link.rxBytes = q) : SameLink (s.setRxBytes q) s := by
  subst hrx
  exact ⟨rfl, rfl⟩

/-- Bytes that are no `MAGIC` leave an empty `rx_bytes` empty, and the link as it was (41_receive.md R132). -/
theorem State.receiveAll_garbage {s : State} {garbage : List Byte} (henabled : s.link.enabled = true)
    (hcap : 0 < s.params.rxBytesCap) (hrx : s.link.rxBytes = []) (hgarbage : ∀ b ∈ garbage, b ≠ s.params.magic) :
    SameLink (s.receiveAll garbage) s := by
  induction garbage with
  | nil => exact .refl s
  | cons b rest ih =>
    obtain ⟨hb, hrest⟩ := List.forall_mem_cons.1 hgarbage
    have hbuffer : s.bufferByte b = s.setRxBytes [b] := by
      rw [State.bufferByte_of_room b (by rw [hrx]; exact hcap), hrx, List.nil_append]
    have hscan : (s.setRxBytes [b]).scan = (s.setRxBytes [b]).runHead .notMagic := by
      rw [State.scan_of_goes (s := s.setRxBytes [b]) (classify_notMagic hb) rfl, State.scan_of_nil rfl]
    have hfirst : SameLink (s.after (.rxByte b)) s := by
      refine (State.after_rxByte b henabled).trans ?_
      rw [hbuffer, hscan]
      exact ⟨rfl, (State.setRxBytes_sameLink hrx).link⟩
    exact (hfirst.receiveAll rest).trans (ih hrest)

/-- A frame received short of its last bytes stands in `rx_bytes` and changes nothing else (41_receive.md R134). -/
theorem State.receiveAll_cut_frame {s : State} {m : Message} {pre suf : List Byte} (henabled : s.link.enabled = true)
    (hm : m.receivable s.params = true) (hcap : headerLen + m.payload.length ≤ s.params.rxBytesCap)
    (hrx : s.link.rxBytes = []) (hcut : pre ++ suf = encodeFrame s.params m) (hsuf : suf ≠ []) :
    SameLink (s.receiveAll pre) (s.setRxBytes pre) := by
  induction pre using List.reverseRecOn generalizing suf with
  | nil => exact ⟨rfl, (State.setRxBytes_sameLink hrx).link.symm⟩
  | append_singleton pre b ih =>
    have hlen := congrArg List.length hcut
    rw [List.append_assoc, List.length_append, List.length_append, encodeFrame_length, List.length_singleton] at hlen
    have hbefore := ih (suf := b :: suf) (by rw [← hcut, List.append_assoc, List.singleton_append]) (List.cons_ne_nil b suf)
    have hbuffer : (s.setRxBytes pre).bufferByte b = s.setRxBytes (pre ++ [b]) :=
      State.bufferByte_of_room b (show pre.length < s.params.rxBytesCap by omega)
    have hwaits : SameLink (s.setRxBytes (pre ++ [b])).scan (s.setRxBytes (pre ++ [b])) := by
      rcases classify_of_cut_frame hm hcut (by simp) hsuf with hc | hc <;>
        exact State.scan_of_stops (s := s.setRxBytes (pre ++ [b])) hc rfl ▸ ⟨rfl, rfl⟩
    rw [State.receiveAll_append, State.receiveAll_cons, State.receiveAll_nil, hbefore.after_eq]
    exact hbuffer ▸ (State.after_rxByte (s := s.setRxBytes pre) b henabled).trans (hbuffer ▸ hwaits)

/-- A frame received whole on an empty `rx_bytes` is run, and leaves what running it leaves but for the ports. -/
theorem State.receiveAll_frame {s : State} {m : Message} (henabled : s.link.enabled = true)
    (hm : m.receivable s.params = true) (hcap : headerLen + m.payload.length ≤ s.params.rxBytesCap)
    (hrx : s.link.rxBytes = []) :
    SameLink (s.receiveAll (encodeFrame s.params m))
      ((s.setRxBytes (encodeFrame s.params m)).runHead (frameKind s.params m)) := by
  have hsplit := List.dropLast_append_getLast (encodeFrame_ne_nil s.params m)
  generalize (encodeFrame s.params m).dropLast = pre, (encodeFrame s.params m).getLast _ = b at hsplit
  have hbefore := State.receiveAll_cut_frame henabled hm hcap hrx hsplit (List.cons_ne_nil b [])
  have hlast : (s.setRxBytes pre).bufferByte b = s.setRxBytes (encodeFrame s.params m) :=
    State.bufferByte_of_last (s := s.setRxBytes pre) hcap hsplit
  have hscan := State.scan_of_frame (s := s.setRxBytes (encodeFrame s.params m)) hm rfl
  have hrun := State.after_rxByte (s := s.setRxBytes pre) b henabled
  rw [hlast, hscan, ← hbefore.after_eq] at hrun
  rw [← hsplit, State.receiveAll_append]
  exact hsplit ▸ hrun

/-- With well-formed parameters `rx_bytes` has room for a frame the receiver accepts (20_memory.md R55). -/
theorem frame_fits_rxBytes {p : Params} {m : Message} (hp : p.wf = true) (hm : m.receivable p = true) :
    headerLen + m.payload.length ≤ p.rxBytesCap := by
  obtain ⟨hcap, -⟩ := Params.wf_iff.1 hp
  obtain ⟨-, hmax⟩ := Message.receivable_iff.1 hm
  exact (Nat.add_le_add_left hmax 5).trans hcap

/-- A data frame received whole on an empty `rx_bytes` is accepted as R138 has it. -/
theorem State.receiveAll_dataFrame {s : State} {m : Message} (hp : s.params.wf = true) (henabled : s.link.enabled = true)
    (hrx : s.link.rxBytes = []) (hwf : (Instr.dataFrame m).wf s.params = true) :
    SameLink (s.receiveAll (encodeFrame s.params m)) ((s.setRxBytes (encodeFrame s.params m)).runHead (.data m)) := by
  obtain ⟨hm, hkind⟩ := dataFrame_wf hwf
  exact hkind ▸ State.receiveAll_frame henabled hm (frame_fits_rxBytes hp hm) hrx

/-- Settles O25: the garbage leaves the link as it was, so what follows is a frame received on an empty `rx_bytes`. -/
theorem garbageBeforeAFrameIsDiscarded : Obligations.GarbageBeforeAFrameIsDiscarded := by
  intro s m garbage hp henabled hrx hgarbage hwf
  obtain ⟨hm, hkind⟩ := dataFrame_wf hwf
  have hcap : 0 < s.params.rxBytesCap := Nat.lt_of_lt_of_le (by simp [headerLen]) (frame_fits_rxBytes hp hm)
  have hbefore := State.receiveAll_garbage henabled hcap hrx hgarbage
  have hdata := (hbefore.receiveAll (encodeFrame s.params m)).trans (State.receiveAll_dataFrame hp henabled hrx hwf)
  refine ⟨(s.setRxBytes (encodeFrame s.params m)).runHead (.data m), exec_toInstr (.data m) _, ?_, ?_⟩
  · rw [State.receiveAll_append]
    exact hdata.link
  · rw [← hkind]
    exact State.runHead_frameKind_rxBytes (hkind ▸ rfl) (List.append_nil _).symm

/-! ### A data frame twice (41_receive.md R144) -/

/-- On an empty `rx_bytes`, receiving a frame's bytes and removing them again cancel. -/
theorem Link.withData_of_frame {p : Params} {m : Message} {l : Link} (hrx : l.rxBytes = []) :
    { l with rxBytes := encodeFrame p m }.withData p m = l.withData p m := by
  have hdrop : rbDrop (encodeFrame p m) (frameLength m) = rbDrop l.rxBytes (frameLength m) := by
    rw [hrx, ← List.append_nil (encodeFrame p m), rbDrop_encodeFrame_append, rbDrop, List.drop_nil]
  rw [Link.withData, hdrop, Link.withData]

/-- A novel data frame with room for its ack and for its message. -/
theorem Link.withData_of_novel {p : Params} {m : Message} {l : Link} (hrx : l.rxBytes = [])
    (hnovel : l.lastReceivedId ≠ some m.msgId) (hroom : l.rxQueue.length < p.rxQueueCap)
    (hack : l.txBytes.length + headerLen ≤ p.txBytesCap) :
    l.withData p m = { l with
      lastReceivedId := some m.msgId
      rxQueue := l.rxQueue ++ [m]
      txBytes := l.txBytes ++ encodeFrame p (ackMessage p m.msgId) } := by
  have hlen : (encodeFrame p (ackMessage p m.msgId)).length = headerLen := encodeFrame_length _ _
  rw [Link.withData, hlen, if_pos hack, if_pos hack, if_pos ⟨hnovel, hroom⟩, if_neg (by omega), hrx, rbDrop, List.drop_nil]

/-- A data frame with the id received last, with room for its ack. -/
theorem Link.withData_of_duplicate {p : Params} {m : Message} {l : Link} (hrx : l.rxBytes = [])
    (hdup : l.lastReceivedId = some m.msgId) (hack : l.txBytes.length + headerLen ≤ p.txBytesCap) :
    l.withData p m = { l with txBytes := l.txBytes ++ encodeFrame p (ackMessage p m.msgId) } := by
  have hlen : (encodeFrame p (ackMessage p m.msgId)).length = headerLen := encodeFrame_length _ _
  rw [Link.withData, hlen, if_pos hack, if_pos hack, if_neg (fun h => h.1 hdup), if_neg (fun h => h.1 hdup), ← hdup, hrx,
    rbDrop, List.drop_nil]

/-- The link a data frame received on an empty `rx_bytes` leaves. -/
theorem State.receiveAll_withData {s : State} {m : Message} (hp : s.params.wf = true) (henabled : s.link.enabled = true)
    (hrx : s.link.rxBytes = []) (hwf : (Instr.dataFrame m).wf s.params = true) :
    SameLink (s.receiveAll (encodeFrame s.params m)) { s with link := s.link.withData s.params m } := by
  refine (State.receiveAll_dataFrame hp henabled hrx hwf).trans ?_
  rw [State.runHead_data]
  exact ⟨rfl, Link.withData_of_frame hrx⟩

/-- Settles O26: the first frame is novel; it sets the id received last, so the second is a duplicate. -/
theorem duplicateIsAckedButNotDelivered : Obligations.DuplicateIsAckedButNotDelivered := by
  rintro s m _ hp henabled hrx hwf rfl hnovel hroom hacks
  have hfive : headerLen = 5 := rfl
  have hlen : (encodeFrame s.params (ackMessage s.params m.msgId)).length = headerLen := encodeFrame_length _ _
  have hfirst := State.receiveAll_withData hp henabled hrx hwf
  rw [Link.withData_of_novel hrx hnovel hroom (by omega)] at hfirst
  have hsecond := (hfirst.receiveAll (encodeFrame s.params m)).trans
    (State.receiveAll_withData hp henabled hrx hwf)
  rw [State.receiveAll_append, hsecond.link]
  refine Link.withData_of_duplicate hrx rfl ?_
  rw [List.length_append, hlen]
  omega

end Sys2Proof.Machine

/-! PROOFS. The transmit side (42_transmit.md): `SEND` (R160), which branch an opportunity takes in each of the arbiter's
states and what the branch leaves (R161 to R168), that a pending message is not replaced (R169), runs of events composed from
single events and from these the retries of an unanswered message (R171) and one round trip of a message. -/

namespace Sys2Proof.Machine

/-! ### `SEND` (42_transmit.md R160) -/

theorem execSend_of_disabled {s : State} (cmd : Byte) (data : List Byte) (hdisabled : s.link.enabled = false) :
    execSend cmd data s = .next (s.setOut (.result .errDisabled)) :=
  if_pos (by simp [hdisabled])

theorem execSend_of_tooLong {s : State} (cmd : Byte) {data : List Byte} (henabled : s.link.enabled = true)
    (hlong : s.params.maxAppData < data.length) : execSend cmd data s = .next (s.setOut (.result .errTooLong)) := by
  rw [execSend, if_neg (by simp [henabled]), if_pos hlong]

theorem execSend_of_full {s : State} (cmd : Byte) {data : List Byte} (henabled : s.link.enabled = true)
    (hlen : data.length ≤ s.params.maxAppData) (hfull : s.params.txQueueCap ≤ s.link.txQueue.length) :
    execSend cmd data s = .next (s.setOut (.result .errQueueFull)) := by
  rw [execSend, if_neg (by simp [henabled]), if_neg (by omega), qPush_none.2 hfull]

theorem execSend_of_room {s : State} (cmd : Byte) {data : List Byte} (henabled : s.link.enabled = true)
    (hlen : data.length ≤ s.params.maxAppData) (hroom : s.link.txQueue.length < s.params.txQueueCap) :
    execSend cmd data s =
      .next (((s.setTxQueue (s.link.txQueue ++ [dataMessage s.params s.link.nextMsgId cmd data])).setNextMsgId
        (s.link.nextMsgId + 1)).setOut (.result .ok)) := by
  rw [execSend, if_neg (by simp [henabled]), if_neg (by omega), qPush_some.2 ⟨hroom, rfl⟩]

/-- Settles O29: the checks of `SEND` in their order. -/
theorem sendQueuesOrReportsAnError : Obligations.SendQueuesOrReportsAnError :=
  fun _ cmd data => ⟨execSend_of_disabled cmd data, execSend_of_tooLong cmd,
    fun henabled hlen hfull => execSend_of_full cmd henabled hlen hfull.ge, execSend_of_room cmd⟩

/-! ### Which branch is selected: while bytes are left, idle, and awaiting an ack (42_transmit.md R161) -/

theorem selectBranch_sending {p : Params} {now : Timestamp} {l : Link} {b : Byte} {rest : List Byte}
    (henabled : l.enabled = true) (hbytes : l.txBytes = b :: rest) : selectBranch p now l = some .drain := by
  simp [selectBranch, henabled, hbytes]

theorem selectBranch_idle {p : Params} {now : Timestamp} {l : Link} (henabled : l.enabled = true)
    (hbytes : l.txBytes = []) (hidle : l.pending = none) :
    selectBranch p now l = some (if l.txQueue = [] then .wait else .start) := by
  cases hqueue : l.txQueue <;> simp [selectBranch, Link.isAcked, Link.isDue, henabled, hbytes, hidle, hqueue]

/-- With a message in flight the ack decides, then the elapsed time, then the retries left (R163, R165). -/
theorem selectBranch_awaiting {p : Params} {now : Timestamp} {l : Link} {m : Message} (henabled : l.enabled = true)
    (hbytes : l.txBytes = []) (hpending : l.pending = some m) :
    selectBranch p now l = some (
      if l.peerAck = some m.msgId then .acked
      else if p.retryIntervalUs ≤ elapsed now l.lastSendTime then
        if l.retryCount < p.maxRetries then .retry else .exhaust
      else .wait) := by
  simp only [selectBranch, Link.isAcked, Link.isDue, henabled, hbytes, hpending, Bool.not_true, List.isEmpty_nil,
    Option.isNone_some, Option.isSome_some, Bool.true_and, Bool.false_and, Bool.false_eq_true, decide_eq_true_eq, if_false]
  split_ifs <;> rfl

/-- The arbiter starts a message only where none is in flight (42_transmit.md R169). -/
theorem pending_of_selectBranch_start {p : Params} {now : Timestamp} {l : Link}
    (h : selectBranch p now l = some .start) : l.pending = none := by
  obtain ⟨-, -, -, hidle, -⟩ := selectBranch_some h
  exact hidle

/-! ### What each branch leaves (42_transmit.md R162 to R168) -/

theorem State.drainByte_of_ready {s : State} {b : Byte} {rest : List Byte} (hbytes : s.link.txBytes = b :: rest) :
    s.drainByte true = ((s.setTxBytes rest).addLabel (.txb b)).setOut (.emitted (some b)) := by
  simp only [State.drainByte, hbytes, rbPop_cons, if_true]

theorem State.finishPending_eq {s : State} {m : Message} (hpending : s.link.pending = some m) :
    s.finishPending = ((s.setPending none).addLabel (.acked m.msgId)).setOut (.emitted none) := by
  simp only [State.finishPending, hpending]

/-- On an empty `tx_bytes` a frame that fits is pushed, and stands there alone. -/
theorem State.pushFrame_of_fits {s : State} {m : Message} (hbytes : s.link.txBytes = [])
    (hfit : headerLen + m.payload.length ≤ s.params.txBytesCap) :
    s.pushFrame m = s.setTxBytes (encodeFrame s.params m) := by
  rcases State.pushFrame_cases m s with ⟨-, h⟩ | ⟨hfull, -⟩
  · rw [h, hbytes, List.nil_append]
  · simp only [hbytes, List.length_nil, frameLength] at hfull
    omega

theorem State.startNext_eq {s : State} {m : Message} {rest : List Message} (now : Timestamp)
    (hbytes : s.link.txBytes = []) (hqueue : s.link.txQueue = m :: rest)
    (hfit : headerLen + m.payload.length ≤ s.params.txBytesCap) :
    s.startNext now =
      ((((((s.setTxQueue rest).setPending (some m)).setRetryCount 0).setLastSendTime now).setTxBytes
        (encodeFrame s.params m)).addLabel (.start m.msgId)).setOut (.emitted none) := by
  have hpush := State.pushFrame_of_fits
    (s := (((s.setTxQueue rest).setPending (some m)).setRetryCount 0).setLastSendTime now) hbytes hfit
  simp only [State.startNext, hqueue, qPop_cons, hpush]
  rfl

theorem State.retryPending_eq {s : State} {m : Message} (now : Timestamp) (hbytes : s.link.txBytes = [])
    (hpending : s.link.pending = some m) (hfit : headerLen + m.payload.length ≤ s.params.txBytesCap) :
    s.retryPending now =
      ((((s.setTxBytes (encodeFrame s.params m)).setRetryCount (s.link.retryCount + 1)).setLastSendTime now).addLabel
        (.retry (s.link.retryCount + 1))).setOut (.emitted none) := by
  simp only [State.retryPending, hpending, State.pushFrame_of_fits hbytes hfit]

theorem State.exhaustPending_eq {s : State} {m : Message} (hpending : s.link.pending = some m)
    (hcap : 1 ≤ s.params.txQueueCap) :
    s.exhaustPending =
      ((s.resetLink.setTxQueue (if m.reset = 0 then [resetMessage s.params] else [])).addLabel
        (.exhaust m.reset)).setOut (.emitted none) := by
  simp only [State.exhaustPending, hpending, State.resetAndAnnounce_eq hcap]
  split <;> rfl

/-! ### The rows of the opcode table that are branches -/

/-- The row of the opcode table that is a branch of the arbiter (42_transmit.md R161). -/
def Branch.row (now : Timestamp) (uartReady : Bool) : Branch → Instr
  | .drain => .arbDrain now uartReady
  | .acked => .arbAcked now uartReady
  | .start => .arbStart now uartReady
  | .retry => .arbRetry now uartReady
  | .exhaust => .arbExhaust now uartReady
  | .wait => .arbWait now uartReady

theorem exec_row (b : Branch) (now : Timestamp) (uartReady : Bool) (s : State) :
    exec (b.row now uartReady) s = .next (s.runIfSelected b now uartReady) := by
  cases b <;> rfl

/-- The six rows are the rows of the six branches. -/
theorem mem_branch_rows {now : Timestamp} {uartReady : Bool} {i : Instr} :
    i ∈ [Instr.arbDrain now uartReady, .arbAcked now uartReady, .arbStart now uartReady, .arbRetry now uartReady,
      .arbExhaust now uartReady, .arbWait now uartReady] ↔ ∃ b : Branch, i = b.row now uartReady := by
  constructor
  · intro hi
    have hrows : i ∈ [Branch.drain, .acked, .start, .retry, .exhaust, .wait].map (Branch.row now uartReady) := hi
    obtain ⟨b, -, rfl⟩ := List.mem_map.1 hrows
    exact ⟨b, rfl⟩
  · rintro ⟨b, rfl⟩
    cases b <;> simp [Branch.row]

section Selected

variable {s : State} {now : Timestamp} {b : Branch}

theorem State.arbitrate_of_selected (hsel : selectBranch s.params now s.link = some b) (uartReady : Bool) :
    s.arbitrate now uartReady = s.runBranch b now uartReady := by
  simp only [State.arbitrate, hsel]

theorem exec_txOpp_of_selected (hsel : selectBranch s.params now s.link = some b) (uartReady : Bool) :
    exec (.txOpp now uartReady) s = .next (s.runBranch b now uartReady) :=
  congrArg Host.Outcome.next (State.arbitrate_of_selected hsel uartReady)

theorem exec_timer_of_selected (hsel : selectBranch s.params now s.link = some b) :
    exec (.timer now) s = .next ((s.runBranch b now false).setOut .none) :=
  congrArg (fun t : State => Host.Outcome.next (t.setOut .none)) (State.arbitrate_of_selected hsel false)

theorem exec_row_of_selected (hsel : selectBranch s.params now s.link = some b) (uartReady : Bool) :
    exec (b.row now uartReady) s = .next (s.runBranch b now uartReady) := by
  rw [exec_row, State.runIfSelected, if_pos hsel]

theorem exec_row_of_not_selected (hsel : selectBranch s.params now s.link ≠ some b) (uartReady : Bool) :
    exec (b.row now uartReady) s = .next s := by
  rw [exec_row, State.runIfSelected, if_neg hsel]

/-- The due row is the retry or the exhaustion, whichever is selected (42_transmit.md R165). -/
theorem exec_arbRetryDue_of_selected (hsel : selectBranch s.params now s.link = some b)
    (hdue : b = .retry ∨ b = .exhaust) (uartReady : Bool) :
    exec (.arbRetryDue now uartReady) s = .next (s.runBranch b now uartReady) := by
  change execArbRetryDue now uartReady s = _
  rcases hdue with rfl | rfl
  · rw [execArbRetryDue, if_pos hsel]
  · rw [execArbRetryDue, if_neg (by simp [hsel]), State.runIfSelected, if_pos hsel]

theorem exec_arbRetryDue_of_not_selected (hretry : selectBranch s.params now s.link ≠ some .retry)
    (hexhaust : selectBranch s.params now s.link ≠ some .exhaust) (uartReady : Bool) :
    exec (.arbRetryDue now uartReady) s = .next s := by
  change execArbRetryDue now uartReady s = _
  rw [execArbRetryDue, if_neg hretry, State.runIfSelected, if_neg hexhaust]

/-- A branch that does not ask the UART does the same from `TX_OPP`, from its own row, and, without output, from `TIMER`. -/
theorem exec_selected_rows {t : State} {uartReady : Bool} (hsel : selectBranch s.params now s.link = some b)
    (hrun : ∀ ready, s.runBranch b now ready = t) :
    (∀ i ∈ [Instr.txOpp now uartReady, b.row now uartReady], exec i s = .next t) ∧
      exec (.timer now) s = .next (t.setOut .none) := by
  refine ⟨?_, hrun false ▸ exec_timer_of_selected hsel⟩
  simp only [List.forall_mem_cons, List.not_mem_nil, false_implies, implies_true, and_true]
  exact ⟨hrun uartReady ▸ exec_txOpp_of_selected hsel uartReady, hrun uartReady ▸ exec_row_of_selected hsel uartReady⟩

/-- The retry and the exhaustion do the same from the due row too (42_transmit.md R165). -/
theorem exec_due_rows {t : State} {uartReady : Bool} (hsel : selectBranch s.params now s.link = some b)
    (hdue : b = .retry ∨ b = .exhaust) (hrun : ∀ ready, s.runBranch b now ready = t) :
    (∀ i ∈ [Instr.txOpp now uartReady, .arbRetryDue now uartReady, b.row now uartReady], exec i s = .next t) ∧
      exec (.timer now) s = .next (t.setOut .none) := by
  obtain ⟨hrows, htimer⟩ := exec_selected_rows (uartReady := uartReady) hsel hrun
  obtain ⟨hopp, hrow⟩ := List.forall_mem_cons.1 hrows
  have hretryDue := hrun uartReady ▸ exec_arbRetryDue_of_selected hsel hdue uartReady
  exact ⟨List.forall_mem_cons.2 ⟨hopp, List.forall_mem_cons.2 ⟨hretryDue, hrow⟩⟩, htimer⟩

end Selected

/-! ### The obligations of one branch -/

/-- Settles O36: the row of the branch selected acts, and a row of another branch does not. -/
theorem oneBranchActsPerOpportunity : Obligations.OneBranchActsPerOpportunity := by
  intro s now uartReady rows
  refine ⟨fun henabled => ?_, fun hdisabled => ⟨fun j hj => ?_, ?_⟩⟩
  · obtain ⟨b, hsel⟩ := selectBranch_enabled (p := s.params) (now := now) henabled
    refine ⟨b.row now uartReady, mem_branch_rows.2 ⟨b, rfl⟩, ⟨_, exec_row_of_selected hsel uartReady,
      exec_txOpp_of_selected hsel uartReady, ?_⟩, fun j hj hne => ?_, ?_⟩
    · rintro rfl
      exact exec_timer_of_selected hsel
    · obtain ⟨c, rfl⟩ := mem_branch_rows.1 hj
      refine exec_row_of_not_selected (fun hc => hne ?_) uartReady
      rw [Option.some.inj (hsel.symm.trans hc)]
    · rw [exec_row_of_selected hsel]
      cases b with
      | retry => simpa [Branch.row] using exec_arbRetryDue_of_selected hsel (.inl rfl) uartReady
      | exhaust => simpa [Branch.row] using exec_arbRetryDue_of_selected hsel (.inr rfl) uartReady
      | _ =>
        simpa [Branch.row] using
          exec_arbRetryDue_of_not_selected (by simp [hsel]) (by simp [hsel]) uartReady
  · obtain ⟨c, rfl⟩ := mem_branch_rows.1 hj
    exact exec_row_of_not_selected (by simp [selectBranch_disabled hdisabled]) uartReady
  · exact exec_arbRetryDue_of_not_selected (by simp [selectBranch_disabled hdisabled])
      (by simp [selectBranch_disabled hdisabled]) uartReady

/-- Settles O30: the drain branch asks the UART, and `TIMER` never has it ready. -/
theorem drainMovesOneByteWhenReady : Obligations.DrainMovesOneByteWhenReady := by
  intro s now b rest henabled hbytes
  have hsel := selectBranch_sending (p := s.params) (now := now) henabled hbytes
  have hmoves : s.runBranch .drain now true = ((s.setTxBytes rest).addLabel (.txb b)).setOut (.emitted (some b)) :=
    State.drainByte_of_ready hbytes
  simp only [List.forall_mem_cons, List.not_mem_nil, false_implies, implies_true, and_true]
  exact ⟨⟨(exec_txOpp_of_selected hsel true).trans (congrArg _ hmoves),
    (exec_row_of_selected hsel true).trans (congrArg _ hmoves)⟩,
    ⟨exec_txOpp_of_selected hsel false, exec_row_of_selected hsel false⟩, exec_timer_of_selected hsel⟩

/-- Settles O31: the acked branch. -/
theorem ackedClearsOnlyPending : Obligations.AckedClearsOnlyPending := by
  intro s now uartReady m henabled hbytes hpending hack
  have hsel : selectBranch s.params now s.link = some .acked := by
    rw [selectBranch_awaiting henabled hbytes hpending, if_pos hack]
  exact exec_selected_rows hsel fun _ => State.finishPending_eq hpending

/-- Settles O32: the start branch. -/
theorem startSendsTheOldestMessage : Obligations.StartSendsTheOldestMessage := by
  intro s now uartReady m rest henabled hbytes hidle hqueue hfit
  have hsel : selectBranch s.params now s.link = some .start := by
    rw [selectBranch_idle henabled hbytes hidle, if_neg (by simp [hqueue])]
  exact exec_selected_rows hsel fun _ => State.startNext_eq now hbytes hqueue hfit

/-- Settles O33: the retry branch. -/
theorem retryResendsThePendingFrame : Obligations.RetryResendsThePendingFrame := by
  intro s now uartReady m henabled hbytes hpending hack hdue hleft hfit
  have hlate : s.params.retryIntervalUs ≤ elapsed now s.link.lastSendTime := hdue
  have hsel : selectBranch s.params now s.link = some .retry := by
    rw [selectBranch_awaiting henabled hbytes hpending, if_neg hack, if_pos hlate, if_pos hleft]
  exact exec_due_rows hsel (.inl rfl) fun _ => State.retryPending_eq now hbytes hpending hfit

/-- Settles O34: the exhaustion branch, over the link reset. -/
theorem exhaustionResetsAndAnnounces : Obligations.ExhaustionResetsAndAnnounces := by
  rintro s now uartReady m _ henabled hbytes hpending hack hdue hleft hcap rfl
  have hlate : s.params.retryIntervalUs ≤ elapsed now s.link.lastSendTime := hdue
  have hsel : selectBranch s.params now s.link = some .exhaust := by
    rw [selectBranch_awaiting henabled hbytes hpending, if_neg hack, if_pos hlate, if_neg (by omega)]
  exact exec_due_rows hsel (.inr rfl) fun _ => State.exhaustPending_eq hpending hcap

/-- Settles O35: the wait branch, idle and with a message in flight. -/
theorem waitRequestsTheNextDeadline : Obligations.WaitRequestsTheNextDeadline := by
  intro s now uartReady henabled hbytes
  refine ⟨fun hidle hqueue => ?_, fun m hpending hack hearly => ?_⟩
  · have hsel : selectBranch s.params now s.link = some .wait := by
      rw [selectBranch_idle henabled hbytes hidle, if_pos hqueue]
    refine exec_selected_rows hsel fun _ => ?_
    rw [State.runBranch, State.requestWake, hidle]
    rfl
  · have hnotDue : ¬s.params.retryIntervalUs ≤ elapsed now s.link.lastSendTime := Nat.not_le.2 hearly
    have hsel : selectBranch s.params now s.link = some .wait := by
      rw [selectBranch_awaiting henabled hbytes hpending, if_neg hack, if_neg hnotDue]
    refine exec_selected_rows hsel fun _ => ?_
    rw [State.runBranch, State.requestWake, hpending]
    rfl

/-! ### At most one message in flight (42_transmit.md R169) -/


/-- What `PendingIsNeverReplaced` says of the link before and after: the message in flight stands or goes, and none leaves the
head of `tx_queue` but by a link reset. -/
structure PendingKept (m : Message) (l l' : Link) : Prop where
  pending : l'.pending = some m ∨ l'.pending = none
  queue : l.txQueue <+: l'.txQueue ∨ ResetValues { l' with txQueue := [] }

namespace PendingKept

variable {m : Message} {l l' : Link}

theorem of_same (hpending : l.pending = some m) (hsame : l'.pending = l.pending) (hqueue : l'.txQueue = l.txQueue) :
    PendingKept m l l' :=
  ⟨.inl (hsame.trans hpending), .inl (hqueue ▸ List.prefix_rfl)⟩

theorem cleared (m : Message) (l : Link) (queue : List Message) : PendingKept m l { l.cleared with txQueue := queue } :=
  ⟨.inr rfl, .inr l.cleared_resetValues⟩

/-- The receive side resets the link or leaves the transmit side alone (41_receive.md R137). -/
theorem of_receiveSide (hpending : l.pending = some m) (h : ResetValues l' ∨ TransmitSideKept l l') :
    PendingKept m l l' := by
  rcases h with hreset | hkept
  · exact ⟨.inr hreset.pending, .inr { hreset with tx_queue := rfl }⟩
  · exact of_same hpending hkept.pending hkept.tx_queue

/-- Only the start branch would put another message in flight, and it is not selected while one is. -/
theorem runBranch {s : State} {b : Branch} {now : Timestamp} (uartReady : Bool) (hpending : s.link.pending = some m)
    (hsel : selectBranch s.params now s.link = some b) : PendingKept m s.link (s.runBranch b now uartReady).link := by
  cases b with
  | drain =>
    simp only [State.runBranch, State.drainByte]
    split
    · split <;> exact of_same hpending rfl rfl
    · exact of_same hpending rfl rfl
  | acked =>
    rw [State.runBranch, State.finishPending_eq hpending]
    exact ⟨.inr rfl, .inl List.prefix_rfl⟩
  | start =>
    have hidle := pending_of_selectBranch_start hsel
    simp [hidle] at hpending
  | retry =>
    obtain ⟨bytes, -, hpush⟩ := State.pushFrame_eq m s
    simp only [State.runBranch, State.retryPending, hpending, hpush]
    exact of_same hpending rfl rfl
  | exhaust =>
    simp only [State.runBranch, State.exhaustPending, hpending]
    split
    · obtain ⟨queue, -, hlink⟩ := s.resetAndAnnounce_link
      rw [State.setOut_link, State.addLabel_link, hlink]
      exact cleared m s.link queue
    · exact cleared m s.link []
  | wait => exact of_same hpending rfl rfl

theorem runIfSelected {s : State} (b : Branch) (now : Timestamp) (uartReady : Bool) (hpending : s.link.pending = some m) :
    PendingKept m s.link (s.runIfSelected b now uartReady).link := by
  unfold State.runIfSelected
  split
  next hsel => exact runBranch uartReady hpending hsel
  next => exact of_same hpending rfl rfl

theorem arbitrate {s : State} (now : Timestamp) (uartReady : Bool) (hpending : s.link.pending = some m) :
    PendingKept m s.link (s.arbitrate now uartReady).link := by
  unfold State.arbitrate
  split
  next => exact of_same hpending rfl rfl
  next b hsel => exact runBranch uartReady hpending hsel

theorem execArbRetryDue {now : Timestamp} {uartReady : Bool} {s t : State} (hpending : s.link.pending = some m)
    (h : execArbRetryDue now uartReady s = .next t) : PendingKept m s.link t.link := by
  unfold Machine.execArbRetryDue at h
  split at h
  next hsel =>
    cases h
    exact runBranch uartReady hpending hsel
  next =>
    cases h
    exact runIfSelected .exhaust now uartReady hpending

theorem execRxByte {b : Byte} {s t : State} (hpending : s.link.pending = some m) (h : execRxByte b s = .next t) :
    PendingKept m s.link t.link := by
  rcases execRxByte_cases h with ⟨-, rfl⟩ | ⟨-, rfl⟩
  · exact of_same hpending rfl rfl
  · exact of_receiveSide hpending <| ((s.setOut .none).bufferByte b).scan_transmitSide.imp_right
      (TransmitSideKept.bufferByte b (s.setOut .none)).trans

/-- `SEND` queues behind what waits. -/
theorem execSend {cmd : Byte} {data : List Byte} {s t : State} (hpending : s.link.pending = some m)
    (h : execSend cmd data s = .next t) : PendingKept m s.link t.link := by
  rcases execSend_cases h with ⟨r, rfl⟩ | ⟨-, -, -, rfl⟩
  · exact of_same hpending rfl rfl
  · exact ⟨.inl hpending, .inl (List.prefix_append _ _)⟩

theorem execRxPop {s t : State} (hpending : s.link.pending = some m) (h : execRxPop s = .next t) :
    PendingKept m s.link t.link := by
  rcases execRxPop_cases h with ⟨-, rfl⟩ | ⟨k, rest, -, rfl⟩ <;> exact of_same hpending rfl rfl

/-- Row by row of the opcode table. -/
theorem exec {s t : State} {i : Instr} (hpending : s.link.pending = some m) (h : exec i s = .next t) :
    PendingKept m s.link t.link := by
  cases i with
  | rxByte b => exact execRxByte hpending h
  | send cmd data => exact execSend hpending h
  | rxPop => exact execRxPop hpending h
  | arbRetryDue now uartReady => exact execArbRetryDue hpending h
  | txOpp now uartReady => cases h; exact arbitrate now uartReady hpending
  | timer now => cases h; exact arbitrate now false hpending
  | arbDrain now uartReady | arbAcked now uartReady | arbStart now uartReady | arbRetry now uartReady
  | arbExhaust now uartReady | arbWait now uartReady => cases h; exact runIfSelected _ now uartReady hpending
  | echoFrame | ackFrame | resetFrame | dataFrame | notMagic | incompleteHeader | badLen | incompleteFrame | badCsum =>
    cases h; exact of_receiveSide hpending (s.runHead_transmitSide _)
  | rxScan => cases h; exact of_receiveSide hpending s.scan_transmitSide
  | enable | linkReset => cases h; exact ⟨.inr rfl, .inr { s.link.cleared_resetValues with }⟩
  | sendReset =>
    cases h
    obtain ⟨queue, -, hlink⟩ := s.resetAndAnnounce_link
    exact hlink ▸ cleared m s.link queue
  | findHeader | status | checksum | checksumOk | packBitfield | unpackBitfield | encode | decode | makeAck | makeReset =>
    cases h; exact of_same hpending rfl rfl

end PendingKept

/-- Settles O38: no row of the opcode table replaces the message in flight. -/
theorem pendingIsNeverReplaced : Obligations.PendingIsNeverReplaced := by
  intro s t i m hpending h
  obtain ⟨hkept, hqueue⟩ := PendingKept.exec hpending h
  exact ⟨hkept, hqueue⟩

/-! ### Runs of events, composed -/

/-- The state in which an event presented alone is run (20_memory.md R60). -/
def State.presented (e : Event) (s : State) : State := (s.setEvents [e]).beginEvent []

theorem State.after_of_exec {e : Event} {s t : State} (h : exec e.toInstr (s.presented e) = .next t) : s.after e = t := by
  have hstep : step (s.setEvents [e]) = .next t := h
  simp only [State.after, hstep]

theorem State.runEvents_append (es fs : List Event) (s : State) :
    s.runEvents (es ++ fs) =
      (((s.runEvents es).1.runEvents fs).1, (s.runEvents es).2 ++ ((s.runEvents es).1.runEvents fs).2) := by
  induction es generalizing s with
  | nil => rfl
  | cons e es ih => simp only [List.cons_append, State.runEvents, ih, List.append_assoc]

/-- The events `es` take `s` to `t`, but for the ports, and put `bytes` on the UART transmitter. -/
structure Runs (s : State) (es : List Event) (t : State) (bytes : List Byte) : Prop where
  link : SameLink (s.runEvents es).1 t
  bytes : (s.runEvents es).2 = bytes

theorem SameLink.symm {s t : State} (h : SameLink s t) : SameLink t s := ⟨h.params.symm, h.link.symm⟩

/-- `tx_bytes` written with what it holds changes nothing. -/
theorem State.setTxBytes_sameLink {s : State} {q : List Byte} (hbytes : s.link.txBytes = q) :
    SameLink (s.setTxBytes q) s := by
  subst hbytes
  exact ⟨rfl, rfl⟩

namespace Runs

variable {s t u : State} {es fs : List Event} {sent more : List Byte}

theorem of_exec {e : Event} (h : Machine.exec e.toInstr (s.presented e) = .next u) (hu : SameLink u t) :
    Runs s [e] t u.emittedByte.toList := by
  have hafter := State.after_of_exec h
  constructor
  · rwa [State.runEvents, State.runEvents, hafter]
  · rw [State.runEvents, State.runEvents, hafter, List.append_nil]

/-- A run depends on the parameters and the link alone. -/
theorem of_sameLink (hstart : SameLink s t) (h : Runs t es u sent) : Runs s es u sent := by
  cases es with
  | nil => exact ⟨hstart.trans h.link, h.bytes⟩
  | cons e es =>
    have hsame : s.runEvents (e :: es) = t.runEvents (e :: es) := by
      rw [State.runEvents, State.runEvents, hstart.after_eq]
    obtain ⟨hlink, hbytes⟩ := h
    exact ⟨hsame ▸ hlink, hsame ▸ hbytes⟩

theorem append (h : Runs s es t sent) (k : Runs t fs u more) : Runs s (es ++ fs) u (sent ++ more) := by
  obtain ⟨hlink, hbytes⟩ := of_sameLink h.link k
  rw [← h.bytes, ← hbytes]
  exact ⟨State.runEvents_append es fs s ▸ hlink, by rw [State.runEvents_append]⟩

/-- Opportunities with the UART ready, one for each byte, empty `tx_bytes` in order (42_transmit.md R162). -/
theorem drain {bytes : List Byte} (now : Timestamp) (henabled : s.link.enabled = true) (hbytes : s.link.txBytes = bytes) :
    Runs s (List.replicate bytes.length (.txOpp now true)) (s.setTxBytes []) bytes := by
  induction bytes generalizing s with
  | nil => exact ⟨(State.setTxBytes_sameLink hbytes).symm, rfl⟩
  | cons b rest ih =>
    obtain ⟨hready, -, -⟩ := drainMovesOneByteWhenReady (s.presented (.txOpp now true)) now b rest
      henabled hbytes
    have hfirst : Runs s [.txOpp now true] (s.setTxBytes rest) [b] :=
      of_exec (hready _ List.mem_cons_self) ⟨rfl, rfl⟩
    exact hfirst.append (ih (s := s.setTxBytes rest) henabled rfl)

/-- Bytes put in an empty `tx_bytes` and then drained: only the bytes have moved. -/
theorem push_drain {bytes : List Byte} (now : Timestamp) (h : Runs s es (t.setTxBytes bytes) [])
    (henabled : t.link.enabled = true) (hempty : t.link.txBytes = []) :
    Runs s (es ++ List.replicate bytes.length (.txOpp now true)) t bytes := by
  obtain ⟨hlink, hbytes⟩ := h.append (drain (s := t.setTxBytes bytes) now henabled rfl)
  exact ⟨hlink.trans (State.setTxBytes_sameLink hempty), hbytes⟩

end Runs

/-! ### No ack: the retries and the exhaustion (42_transmit.md R171) -/

/-- A message in flight on an enabled link, sent whole and not acknowledged, with parameters its frame fits. -/
structure Unanswered (m : Message) (s : State) : Prop where
  enabled : s.link.enabled = true
  sent : s.link.txBytes = []
  pending : s.link.pending = some m
  no_ack : s.link.peerAck ≠ some m.msgId
  interval : s.params.retryIntervalUs < 2 ^ 64
  fits : headerLen + m.payload.length ≤ s.params.txBytesCap

/-- The link after retry number `count`, made at `time` and drained. -/
def State.retried (s : State) (count : Nat) (time : Timestamp) : State :=
  (s.setRetryCount count).setLastSendTime time

theorem Unanswered.retried {m : Message} {s : State} (h : Unanswered m s) (count : Nat) (time : Timestamp) :
    Unanswered m (s.retried count time) := { h with }

/-- At the deadline exactly the interval has elapsed, also where the deadline wraps. -/
theorem deadline_elapsed {p : Params} (last : Timestamp) (h : p.retryIntervalUs < 2 ^ 64) :
    (deadline p last - last).toNat = p.retryIntervalUs := by
  rw [deadline, BitVec.add_comm, BitVec.add_sub_cancel, BitVec.toNat_ofNat, Nat.mod_eq_of_lt h]

/-- One round: the timer pushes the frame, the opportunities emit it. -/
theorem Unanswered.runs_retryRound {m : Message} {s : State} (h : Unanswered m s)
    (hleft : s.link.retryCount < s.params.maxRetries) :
    Runs s (retryRound (deadline s.params s.link.lastSendTime) (headerLen + m.payload.length))
      (s.retried (s.link.retryCount + 1) (deadline s.params s.link.lastSendTime)) (encodeFrame s.params m) := by
  set now := deadline s.params s.link.lastSendTime
  have hdue : s.params.retryIntervalUs ≤ (now - s.link.lastSendTime).toNat := (deadline_elapsed _ h.interval).ge
  obtain ⟨-, htimer⟩ := retryResendsThePendingFrame (s.presented (.timer now)) now false m
    h.enabled h.sent h.pending h.no_ack hdue hleft h.fits
  have hpush : Runs s [.timer now] ((s.retried (s.link.retryCount + 1) now).setTxBytes (encodeFrame s.params m)) [] :=
    Runs.of_exec (e := .timer now) htimer ⟨rfl, rfl⟩
  have hround := hpush.push_drain now h.enabled h.sent
  rwa [encodeFrame_length] at hround

/-- `n` rounds, as many as the retries left allow: the frame `n` times, `n` intervals later. -/
theorem Unanswered.runs_retryRounds {m : Message} (n : Nat) {s : State} (h : Unanswered m s)
    (hleft : s.link.retryCount + n ≤ s.params.maxRetries) :
    Runs s (retryRounds s.params (headerLen + m.payload.length) n s.link.lastSendTime)
      (s.retried (s.link.retryCount + n) (s.link.lastSendTime + BitVec.ofNat tsBits (n * s.params.retryIntervalUs)))
      (List.replicate n (encodeFrame s.params m)).flatten := by
  induction n generalizing s with
  | zero => exact ⟨⟨rfl, by simp [State.retried, State.runEvents, retryRounds]⟩, rfl⟩
  | succ n ih =>
    have hround := h.runs_retryRound (by omega)
    have hrest := ih (h.retried (s.link.retryCount + 1) (deadline s.params s.link.lastSendTime))
      (show s.link.retryCount + 1 + n ≤ s.params.maxRetries by omega)
    have hcount : s.link.retryCount + 1 + n = s.link.retryCount + (n + 1) := by omega
    have htime : deadline s.params s.link.lastSendTime + BitVec.ofNat tsBits (n * s.params.retryIntervalUs) =
        s.link.lastSendTime + BitVec.ofNat tsBits ((n + 1) * s.params.retryIntervalUs) := by
      rw [deadline, BitVec.add_assoc, ← BitVec.ofNat_add, Nat.add_comm, ← Nat.succ_mul]
    rw [← hcount, ← htime]
    exact hround.append hrest

/-- Settles O39: `n` rounds leave the message unanswered, and with no retry left the next deadline exhausts it. -/
theorem noAckMeansMaxRetriesThenReset : Obligations.NoAckMeansMaxRetriesThenReset := by
  rintro s m n _ henabled hsent hpending hack hfirst hinterval hfits hcap hn rfl
  have hs : Unanswered m s := ⟨henabled, hsent, hpending, hack, hinterval, hfits⟩
  obtain ⟨hlink, hbytes⟩ := hs.runs_retryRounds n (by omega)
  rw [hfirst, Nat.zero_add] at hlink
  refine ⟨hlink.link, hbytes, ?_⟩
  rintro rfl
  set t := s.retried s.params.maxRetries
    (s.link.lastSendTime + BitVec.ofNat tsBits (s.params.maxRetries * s.params.retryIntervalUs))
  have hlast : Unanswered m t := hs.retried _ _
  have hdue := (deadline_elapsed t.link.lastSendTime hlast.interval).ge
  obtain ⟨-, htimer⟩ := exhaustionResetsAndAnnounces
    (t.presented (.timer (deadline t.params t.link.lastSendTime))) (deadline t.params t.link.lastSendTime) false m _
    henabled hsent hpending hack hdue le_rfl hcap rfl
  rw [hlink.after_eq, hlink.link]
  exact congrArg State.link (State.after_of_exec (e := .timer _) htimer)

/-! ### One message goes round the link -/

/-- Of the parameters a frame depends on `MAGIC` alone (40_codec.md R105). -/
theorem encodeFrame_eq_of_magic_eq {p q : Params} (h : p.magic = q.magic) (m : Message) :
    encodeFrame p m = encodeFrame q m := by
  rw [encodeFrame_eq, encodeFrame_eq, h]

/-- The link with `m` in flight, sent whole for the first time at `now`. -/
def State.awaiting (m : Message) (now : Timestamp) (s : State) : State :=
  ((s.setPending (some m)).setRetryCount 0).setLastSendTime now

/-- `tx_queue` written with what it holds changes nothing. -/
theorem State.setTxQueue_sameLink {s : State} {q : List Message} (hqueue : s.link.txQueue = q) :
    SameLink (s.setTxQueue q) s := by
  subst hqueue
  exact ⟨rfl, rfl⟩

/-- A successful `SEND` puts nothing on the wire by itself (42_transmit.md R160). -/
theorem Runs.send {s : State} (cmd : Byte) {data : List Byte} (henabled : s.link.enabled = true)
    (hlen : data.length ≤ s.params.maxAppData) (hroom : s.link.txQueue.length < s.params.txQueueCap) :
    Runs s [.send cmd data]
      ((s.setTxQueue (s.link.txQueue ++ [dataMessage s.params s.link.nextMsgId cmd data])).setNextMsgId
        (s.link.nextMsgId + 1)) [] :=
  .of_exec (e := .send cmd data)
    (execSend_of_room (s := s.presented (.send cmd data)) cmd henabled hlen hroom) ⟨rfl, rfl⟩

/-- An opportunity starts the oldest message, and one for each byte of its frame emits it (42_transmit.md R162, R164). -/
theorem Runs.start_drain {s : State} (now : Timestamp) {m : Message} {rest : List Message}
    (henabled : s.link.enabled = true) (hbytes : s.link.txBytes = []) (hidle : s.link.pending = none)
    (hqueue : s.link.txQueue = m :: rest) (hfit : headerLen + m.payload.length ≤ s.params.txBytesCap) :
    Runs s (.txOpp now false :: List.replicate (headerLen + m.payload.length) (.txOpp now true))
      ((s.setTxQueue rest).awaiting m now) (encodeFrame s.params m) := by
  obtain ⟨hrows, -⟩ := startSendsTheOldestMessage (s.presented (.txOpp now false)) now false m rest
    henabled hbytes hidle hqueue hfit
  have hpush : Runs s [.txOpp now false] (((s.setTxQueue rest).awaiting m now).setTxBytes (encodeFrame s.params m)) [] :=
    Runs.of_exec (e := .txOpp now false) (hrows _ List.mem_cons_self) ⟨rfl, rfl⟩
  have hstart := hpush.push_drain now henabled hbytes
  rwa [encodeFrame_length] at hstart

/-- On an idle link, `SEND` and the opportunities that follow emit the message and leave it in flight. -/
theorem Runs.send_start_drain {s : State} (cmd : Byte) {data : List Byte} (now : Timestamp) {m : Message}
    (hm : m = dataMessage s.params s.link.nextMsgId cmd data) (hp : s.params.wf = true)
    (henabled : s.link.enabled = true) (hlen : data.length ≤ s.params.maxAppData) (hbytes : s.link.txBytes = [])
    (hidle : s.link.pending = none) (hqueue : s.link.txQueue = []) :
    Runs s (.send cmd data :: .txOpp now false :: List.replicate (6 + data.length) (.txOpp now true))
      ((s.setNextMsgId (s.link.nextMsgId + 1)).awaiting m now) (encodeFrame s.params m) := by
  obtain ⟨-, -, hcap, hroom, -, -, -⟩ := Params.wf_iff.1 hp
  have hframe : headerLen + m.payload.length = 6 + data.length := by
    rw [hm, dataMessage, List.length_cons, headerLen]
    omega
  have hsend := Runs.send cmd henabled hlen (by rwa [hqueue])
  rw [hqueue, List.nil_append, ← hm] at hsend
  have hstart := Runs.start_drain (s := (s.setTxQueue [m]).setNextMsgId (s.link.nextMsgId + 1)) now
    henabled hbytes hidle rfl (show headerLen + m.payload.length ≤ s.params.txBytesCap by omega)
  rw [hframe] at hstart
  obtain ⟨hlink, hsent⟩ := hsend.append hstart
  exact ⟨hlink.trans (State.setTxQueue_sameLink (s := (s.setNextMsgId (s.link.nextMsgId + 1)).awaiting m now) hqueue),
    hsent⟩

/-- A novel data frame received on a link with nothing else to send is queued once and acknowledged, and the ack emitted
(41_receive.md R138, 42_transmit.md R162). -/
theorem Runs.ack_of_novel {s : State} (now : Timestamp) {m : Message} (hp : s.params.wf = true)
    (henabled : s.link.enabled = true) (hbytes : s.link.txBytes = []) (hrx : s.link.rxBytes = [])
    (hwf : (Instr.dataFrame m).wf s.params = true) (hnovel : s.link.lastReceivedId ≠ some m.msgId)
    (hroom : s.link.rxQueue.length < s.params.rxQueueCap) :
    Runs (s.receiveAll (encodeFrame s.params m)) (List.replicate 5 (.txOpp now true))
      ((s.setLastReceivedId (some m.msgId)).setRxQueue (s.link.rxQueue ++ [m]))
      (encodeFrame s.params (ackMessage s.params m.msgId)) := by
  obtain ⟨-, hfit, -⟩ := Params.wf_iff.1 hp
  have hackFits : s.link.txBytes.length + headerLen ≤ s.params.txBytesCap := by
    simp only [hbytes, List.length_nil, headerLen]
    omega
  have hreceived := State.receiveAll_withData hp henabled hrx hwf
  rw [Link.withData_of_novel hrx hnovel hroom hackFits, hbytes, List.nil_append] at hreceived
  have hpush : Runs (s.receiveAll (encodeFrame s.params m)) []
      (((s.setLastReceivedId (some m.msgId)).setRxQueue (s.link.rxQueue ++ [m])).setTxBytes
        (encodeFrame s.params (ackMessage s.params m.msgId))) [] := ⟨hreceived, rfl⟩
  have hack := hpush.push_drain now henabled hbytes
  rwa [encodeFrame_length] at hack

/-- An ack received whole on an empty `rx_bytes` records its id and nothing else (41_receive.md R136). -/
theorem State.receiveAll_ack {s : State} {k : Message} (hp : s.params.wf = true) (henabled : s.link.enabled = true)
    (hrx : s.link.rxBytes = []) (hk : k.receivable s.params = true) (hsender : k.sender ≠ s.params.localId)
    (hack : k.ack = 1) : SameLink (s.receiveAll (encodeFrame s.params k)) (s.setPeerAck (some k.msgId)) := by
  have hreceived := State.receiveAll_frame henabled hk (frame_fits_rxBytes hp hk) hrx
  rw [frameKind_of_ack hsender hack] at hreceived
  have hconsumed : (((s.setRxBytes (encodeFrame s.params k)).setPeerAck (some k.msgId)).addLabel
      (.ackRx k.msgId)).consumeFrame k = _ := State.consumeFrame_eq (List.append_nil _).symm
  refine hreceived.trans ?_
  rw [State.runHead, hconsumed]
  exact ⟨rfl, (State.setRxBytes_sameLink (s := s.setPeerAck (some k.msgId)) hrx).link⟩

/-- The ack of the message in flight received, the next opportunity clears the message (42_transmit.md R163). -/
theorem State.after_ack {s : State} (now : Timestamp) {m k : Message} (hp : s.params.wf = true)
    (henabled : s.link.enabled = true) (hbytes : s.link.txBytes = []) (hrx : s.link.rxBytes = [])
    (hpending : s.link.pending = some m) (hk : k.receivable s.params = true) (hsender : k.sender ≠ s.params.localId)
    (hack : k.ack = 1) (hid : k.msgId = m.msgId) :
    SameLink ((s.receiveAll (encodeFrame s.params k)).after (.txOpp now true))
      ((s.setPeerAck (some k.msgId)).setPending none) := by
  obtain ⟨hrows, -⟩ := ackedClearsOnlyPending ((s.setPeerAck (some k.msgId)).presented (.txOpp now true)) now true m
    henabled hbytes hpending (congrArg some hid)
  rw [(State.receiveAll_ack hp henabled hrx hk hsender hack).after_eq,
    State.after_of_exec (e := .txOpp now true) (hrows _ List.mem_cons_self)]
  exact ⟨rfl, rfl⟩

/-- Settles O59: A's run, B's run on what A emitted, and A on what B emitted. -/
theorem oneMessageGoesRoundTheLink : Obligations.OneMessageGoesRoundTheLink := by
  rintro a b cmd data t u v m _ _ hpa hpb hmagic hids hlen hmax haEnabled haBytes haRx haIdle haQueue hbEnabled hbBytes hbRx
    hbRoom hnovel hm rfl rfl
  have hpayload : m.payload.length = 1 + data.length := by rw [hm, dataMessage, List.length_cons, Nat.add_comm]
  have hid : m.msgId = a.link.nextMsgId := by rw [hm, dataMessage]
  obtain ⟨haLink, haSent⟩ := Runs.send_start_drain cmd t hm hpa haEnabled hlen haBytes haIdle haQueue
  have hwf : (Instr.dataFrame m).wf b.params = true := by
    obtain ⟨-, -, -, -, -, hbMax, -⟩ := Params.wf_iff.1 hpb
    have hreceivable : m.receivable b.params = true := Message.receivable_iff.2 ⟨by omega, by omega⟩
    rw [Instr.wf, hreceivable, hm]
    simp [dataMessage, hids]
  obtain ⟨hbLink, hbSent⟩ := Runs.ack_of_novel u hpb hbEnabled hbBytes hbRx hwf (hid ▸ hnovel) hbRoom
  rw [haSent, encodeFrame_eq_of_magic_eq hmagic m, hbLink.link, hbSent, hid]
  refine ⟨rfl, by rw [haLink.link]; rfl, rfl, rfl, rfl, ?_⟩
  rw [← encodeFrame_eq_of_magic_eq hmagic, (haLink.receiveAll _).after_eq]
  have hacked := State.after_ack (s := (a.setNextMsgId (a.link.nextMsgId + 1)).awaiting m t)
    (k := ackMessage b.params a.link.nextMsgId) v hpa haEnabled haBytes haRx rfl
    (Message.receivable_iff.2 ⟨Nat.zero_le _, Nat.zero_le _⟩) (Ne.symm hids) rfl hid.symm
  refine hacked.link.trans ?_
  change { a.link with
    nextMsgId := a.link.nextMsgId + 1, pending := none, retryCount := 0, lastSendTime := t
    peerAck := some a.link.nextMsgId } = _
  rw [← haIdle]

end Sys2Proof.Machine

/-! PROOFS. Link control (43_link_control.md): `reset` (R190), `send_reset` (R191) and what a late timer finds after each
(R196), `ENABLE` (R193), and the link before its first `ENABLE` (R194). -/

namespace Sys2Proof.Machine

/-! ### `reset` and `send_reset` (43_link_control.md R190, R191) -/

theorem exec_linkReset (s : State) : exec .linkReset s = .next s.resetLink := rfl

/-- The queue was just emptied, so the reset frame finds room and stands there alone. -/
theorem exec_sendReset {s : State} (hcap : 1 ≤ s.params.txQueueCap) :
    exec .sendReset s = .next (s.resetLink.setTxQueue [resetMessage s.params]) :=
  congrArg Host.Outcome.next (State.resetAndAnnounce_eq hcap)

/-- Settles O41: the fields `reset()` writes, and no other. -/
theorem linkResetClearsAllInFlightState : Obligations.LinkResetClearsAllInFlightState := exec_linkReset

/-- Settles O42: the link reset, then the reset frame alone in `tx_queue`. -/
theorem sendResetQueuesAResetFrame : Obligations.SendResetQueuesAResetFrame := fun _ hcap => exec_sendReset hcap

/-! ### A late timer (43_link_control.md R196) -/

/-- After `reset()` nothing is pending or queued: the timer takes the wait branch and asks for no wake-up, as `reset()` left
it. -/
theorem exec_timer_after_reset {s : State} (now : Timestamp) (henabled : s.link.enabled = true) :
    exec (.timer now) s.resetLink = .next ((s.resetLink.addLabel .idleWait).setOut .none) := by
  obtain ⟨hidle, -⟩ := waitRequestsTheNextDeadline s.resetLink now false henabled rfl
  obtain ⟨-, htimer⟩ := hidle rfl rfl
  exact htimer

/-- With only the reset frame queued the timer takes the start branch, which counts its retries from 0. -/
theorem exec_timer_after_sendReset {s : State} (now : Timestamp) (henabled : s.link.enabled = true)
    (hfit : headerLen ≤ s.params.txBytesCap) :
    ∃ u, exec (.timer now) (s.resetLink.setTxQueue [resetMessage s.params]) = .next u ∧
      u.link.pending = some (resetMessage s.params) ∧ u.link.txBytes = encodeFrame s.params (resetMessage s.params) ∧
      u.link.retryCount = 0 := by
  obtain ⟨-, htimer⟩ := startSendsTheOldestMessage (s.resetLink.setTxQueue [resetMessage s.params]) now false
    (resetMessage s.params) [] henabled rfl rfl rfl hfit
  exact ⟨_, htimer, rfl, rfl, rfl⟩

/-- Settles O40: `reset()` leaves nothing to retry, `send_reset()` only its own frame to start. -/
theorem lateTimerAfterResetIsHarmless : Obligations.LateTimerAfterResetIsHarmless := by
  intro s now henabled hcap hfit
  refine ⟨⟨_, _, exec_linkReset s, exec_timer_after_reset now henabled, rfl⟩, ?_⟩
  obtain ⟨u, htimer, hstarted⟩ := exec_timer_after_sendReset now henabled hfit
  exact ⟨_, u, exec_sendReset hcap, htimer, hstarted⟩

/-! ### `ENABLE` (43_link_control.md R193) -/

/-- The link reset, the cleared flags and `enabled` are together every field of the link record. -/
theorem State.resetLink_clearFlags_setEnabled (s : State) (v : Bool) :
    s.resetLink.clearFlags.setEnabled v = { s with link := { Link.powerOn with enabled := v } } := rfl

/-- Settles O43: nothing of the link before is left. -/
theorem enableResetsAndEnables : Obligations.EnableResetsAndEnables := fun s =>
  congrArg (fun t : State => Host.Outcome.next (t.setOut .none)) (s.resetLink_clearFlags_setEnabled true)

/-! ### Before the first `ENABLE`, and after it (43_link_control.md R194) -/

section Disabled

variable {s : State} (hdisabled : s.link.enabled = false)

include hdisabled

theorem State.arbitrate_of_disabled (now : Timestamp) (uartReady : Bool) :
    s.arbitrate now uartReady = s.setOut (.emitted none) := by
  simp only [State.arbitrate, selectBranch_disabled hdisabled]

theorem exec_txOpp_of_disabled (now : Timestamp) (uartReady : Bool) :
    exec (.txOpp now uartReady) s = .next (s.setOut (.emitted none)) :=
  congrArg Host.Outcome.next (State.arbitrate_of_disabled hdisabled now uartReady)

theorem exec_timer_of_disabled (now : Timestamp) : exec (.timer now) s = .next (s.setOut .none) := by
  change Host.Outcome.next ((s.arbitrate now false).setOut .none) = _
  rw [State.arbitrate_of_disabled hdisabled]
  rfl

/-- Only an enabled link receives, so the power-on queue is still empty. -/
theorem Inv.rxQueue_of_disabled (hs : Inv s) : s.link.rxQueue = [] := by
  rw [hs.before_enable hdisabled]
  rfl

end Disabled

/-- `ENABLE` sets `enabled` and no other row of the opcode table writes it (10_state.md R32). -/
theorem exec_keeps_enabled {s t : State} {i : Instr} (h : exec i s = .next t) (henabled : s.link.enabled = true) :
    t.link.enabled = true := by
  by_cases hi : i = .enable
  · subst hi
    cases h
    rfl
  · exact (exec_controlKept hi h).enabled.trans henabled

/-- A step is one event, or nothing. -/
theorem step_keeps_enabled {s t : State} (h : step s = .next t) (henabled : s.link.enabled = true) :
    t.link.enabled = true := by
  cases hevents : s.events with
  | nil =>
    rw [step_of_events_nil hevents] at h
    cases h
    exact henabled
  | cons e rest =>
    rw [step_of_events_cons hevents] at h
    exact exec_keeps_enabled h henabled

/-- Settles O46: each event of a disabled link is answered at the output port alone, and no step clears `enabled`. -/
theorem disabledLinkIsInert : Obligations.DisabledLinkIsInert := by
  refine ⟨fun s hs hdisabled => ?_, fun _ _ => step_keeps_enabled⟩
  obtain ⟨-, hpop⟩ := rxPopReturnsTheOldest s
  exact ⟨fun b => exec_rxByte_of_disabled b hdisabled, exec_txOpp_of_disabled hdisabled, exec_timer_of_disabled hdisabled,
    fun cmd data => execSend_of_disabled cmd data hdisabled, hpop (hs.rxQueue_of_disabled hdisabled),
    statusHasNoSideEffect s⟩

end Sys2Proof.Machine

/-! PROOFS. The behaviours of a run (60_exceptions.md): every row and every step completes (R205), a quiescent link stays put
(R218), a fair UART drains `tx_bytes` (R211), and the two-party system's wire and identities (R214, R215). -/

namespace Sys2Proof.Machine

/-! ### Every row and every step completes (60_exceptions.md R205) -/

/-- The due row completes as a retry, as an exhaustion, or with nothing done. -/
theorem execArbRetryDue_completes (now : Timestamp) (uartReady : Bool) (s : State) :
    ∃ t, execArbRetryDue now uartReady s = .next t := by
  unfold execArbRetryDue
  split <;> exact ⟨_, rfl⟩

/-- Row by row of the opcode table: four rows decide which state they answer, every other row is one update. -/
theorem exec_completes (i : Instr) (s : State) : ∃ t, exec i s = .next t := by
  cases i with
  | rxByte b => exact execRxByte_completes b s
  | send cmd data => exact execSend_completes cmd data s
  | rxPop => exact execRxPop_completes s
  | arbRetryDue now uartReady => exact execArbRetryDue_completes now uartReady s
  | txOpp | timer | enable | status => exact ⟨_, rfl⟩
  | echoFrame | ackFrame | resetFrame | dataFrame => exact ⟨_, rfl⟩
  | notMagic | incompleteHeader | badLen | incompleteFrame | badCsum => exact ⟨_, rfl⟩
  | checksum | checksumOk | packBitfield | unpackBitfield | encode | decode | findHeader | makeAck | makeReset =>
    exact ⟨_, rfl⟩
  | rxScan | linkReset | sendReset => exact ⟨_, rfl⟩
  | arbDrain | arbAcked | arbStart | arbRetry | arbExhaust | arbWait => exact ⟨_, rfl⟩

/-- A step is one row, or nothing. -/
theorem step_completes (s : State) : ∃ t, step s = .next t := by
  cases hevents : s.events with
  | nil => exact ⟨s, step_of_events_nil hevents⟩
  | cons e rest => exact step_of_events_cons hevents ▸ exec_completes e.toInstr (s.beginEvent rest)

/-- Settles O49: every row completes, and a step runs at most one. -/
theorem everyInstructionCompletes : Obligations.EveryInstructionCompletes := ⟨exec_completes, step_completes⟩

/-! ### A quiescent link (60_exceptions.md R218) -/

/-- Quiescence, field by field. -/
theorem Link.quiescent_iff {l : Link} :
    l.quiescent = true ↔
      l.enabled = true ∧ l.txBytes = [] ∧ l.pending = none ∧ l.txQueue = [] ∧ l.rxQueue = [] := by
  simp only [Link.quiescent, Bool.and_eq_true, List.isEmpty_iff, Option.isNone_iff_eq_none, and_assoc]

/-- Settles O54: an opportunity takes the wait branch, which writes `wake_deadline` alone; the queue is empty for `RX_POP`;
`STATUS` writes nothing. -/
theorem quiescentLinkStaysPut : Obligations.QuiescentLinkStaysPut := by
  intro s e hquiescent hrx hsend henable
  obtain ⟨henabled, hbytes, hidle, htxQueue, hrxQueue⟩ := Link.quiescent_iff.1 hquiescent
  cases e with
  | txOpp now uartReady =>
    obtain ⟨hwait, -⟩ := waitRequestsTheNextDeadline s now uartReady henabled hbytes
    obtain ⟨hrows, -⟩ := hwait hidle htxQueue
    exact ⟨_, hrows _ List.mem_cons_self, rfl⟩
  | timer now =>
    obtain ⟨hwait, -⟩ := waitRequestsTheNextDeadline s now false henabled hbytes
    obtain ⟨-, htimer⟩ := hwait hidle htxQueue
    exact ⟨_, htimer, rfl⟩
  | rxPop =>
    obtain ⟨-, hempty⟩ := rxPopReturnsTheOldest s
    exact ⟨_, hempty hrxQueue, rfl⟩
  | status => exact ⟨_, statusHasNoSideEffect s, rfl⟩
  | rxByte b => exact absurd rfl (hrx b)
  | send cmd data => exact absurd rfl (hsend cmd data)
  | enable => exact absurd rfl henable

/-! ### A fair UART drains `tx_bytes` (60_exceptions.md R211, 42_transmit.md R162) -/

/-- While bytes are left, an event that is no `RX_BYTE` and no `ENABLE` leaves `tx_bytes` as it is, but for an opportunity
with the UART ready, which takes the head off. -/
theorem txBytes_of_sending {e : Event} {s t : State} (henabled : s.link.enabled = true) (hbytes : s.link.txBytes ≠ [])
    (hrx : ∀ b, e ≠ .rxByte b) (henable : e ≠ .enable) (h : exec e.toInstr s = .next t) :
    ((∀ now, e ≠ .txOpp now true) ∧ t.link.txBytes = s.link.txBytes) ∨
    ((∃ now, e = .txOpp now true) ∧ t.link.txBytes = s.link.txBytes.tail) := by
  obtain ⟨b, rest, hcons⟩ := List.exists_cons_of_ne_nil hbytes
  cases e with
  | txOpp now uartReady =>
    obtain ⟨hready, hnotReady, -⟩ := drainMovesOneByteWhenReady s now b rest henabled hcons
    cases uartReady with
    | true =>
      cases (hready _ List.mem_cons_self).symm.trans h
      exact .inr ⟨⟨now, rfl⟩, by rw [hcons, List.tail_cons]⟩
    | false =>
      cases (hnotReady _ List.mem_cons_self).symm.trans h
      exact .inl ⟨nofun, rfl⟩
  | timer now =>
    obtain ⟨-, -, htimer⟩ := drainMovesOneByteWhenReady s now b rest henabled hcons
    cases htimer.symm.trans h
    exact .inl ⟨nofun, rfl⟩
  | send cmd data =>
    rcases execSend_cases h with ⟨r, rfl⟩ | ⟨-, -, -, rfl⟩ <;> exact .inl ⟨nofun, rfl⟩
  | rxPop =>
    rcases execRxPop_cases h with ⟨-, rfl⟩ | ⟨m, queue, -, rfl⟩ <;> exact .inl ⟨nofun, rfl⟩
  | status =>
    cases h
    exact .inl ⟨nofun, rfl⟩
  | rxByte b => exact absurd rfl (hrx b)
  | enable => exact absurd rfl henable

section Draining

variable {run : Nat → State} {ev : Nat → Event} {n : Nat}

theorem IsRun.enabled_from (hrun : IsRun run ev) (henabled : (run n).link.enabled = true) {k : Nat} (hk : n ≤ k) :
    (run k).link.enabled = true := by
  induction k, hk using Nat.le_induction with
  | base => exact henabled
  | succ k _ ih => exact step_keeps_enabled (hrun k) ih

variable (hrun : IsRun run ev) (henabled : (run n).link.enabled = true)
  (hquiet : ∀ k, n ≤ k → (∀ b, ev k ≠ .rxByte b) ∧ ev k ≠ .enable)
  (hleft : ∀ k, n ≤ k → (run k).link.txBytes ≠ [])

include hrun henabled hquiet hleft

/-- One event of a run that from `n` on receives nothing, is not enabled again and always has bytes left. -/
theorem IsRun.txBytes_succ {k : Nat} (hk : n ≤ k) :
    ((∀ now, ev k ≠ .txOpp now true) ∧ (run (k + 1)).link.txBytes = (run k).link.txBytes) ∨
    ((∃ now, ev k = .txOpp now true) ∧ (run (k + 1)).link.txBytes = (run k).link.txBytes.tail) := by
  obtain ⟨hrx, henable⟩ := hquiet k hk
  exact txBytes_of_sending (s := ((run k).setEvents [ev k]).beginEvent []) (hrun.enabled_from henabled hk) (hleft k hk)
    hrx henable (hrun k)

theorem IsRun.txBytes_length_le {j k : Nat} (hj : n ≤ j) (hjk : j ≤ k) :
    (run k).link.txBytes.length ≤ (run j).link.txBytes.length := by
  induction k, hjk using Nat.le_induction with
  | base => exact le_rfl
  | succ k hjk ih =>
    rcases hrun.txBytes_succ henabled hquiet hleft (hj.trans hjk) with ⟨-, hsame⟩ | ⟨-, htail⟩
    · rwa [hsame]
    · rw [htail, List.length_tail]
      omega

/-- An opportunity with the UART ready takes a byte off. -/
theorem IsRun.txBytes_length_lt {k : Nat} (hk : n ≤ k) (hopp : ∃ now, ev k = .txOpp now true) :
    (run (k + 1)).link.txBytes.length < (run k).link.txBytes.length := by
  rcases hrun.txBytes_succ henabled hquiet hleft hk with ⟨hnone, -⟩ | ⟨-, htail⟩
  · obtain ⟨now, hnow⟩ := hopp
    exact absurd hnow (hnone now)
  · have hpos := List.length_pos_of_ne_nil (hleft k hk)
    rw [htail, List.length_tail]
    omega

end Draining

/-- Settles O55: were bytes always left, fairness would give an opportunity after the time at which `tx_bytes` is shortest,
and that would make it shorter still. -/
theorem fairUartDrainsTheRing : Obligations.FairUartDrainsTheRing := by
  intro run ev n hrun hfair henabled hquiet
  by_contra! hleft
  obtain ⟨j, hj, hshortest⟩ :=
    exists_minimalFor_of_wellFoundedLT (n ≤ ·) (fun k => (run k).link.txBytes.length) ⟨n, le_rfl⟩
  obtain ⟨k, hjk, hopp⟩ := hfair.drains j (hleft j hj)
  have hnotLonger := hrun.txBytes_length_le henabled hquiet hleft hj hjk
  have hshorter := hrun.txBytes_length_lt henabled hquiet hleft (hj.trans hjk) hopp
  have hless := hshorter.trans_le hnotLonger
  exact hless.not_ge (hshortest (hj.trans (hjk.trans k.le_succ)) hless.le)

/-! ### The wire (60_exceptions.md R214) -/

/-- A received byte puts nothing on the UART transmitter (30_encoding.md R80). -/
theorem step_rxByte_emits_nothing {b : Byte} {rest : List Event} {s t : State}
    (h : step (s.setEvents (.rxByte b :: rest)) = .next t) : t.emittedByte = none := by
  rw [step_setEvents_cons] at h
  obtain ⟨-, -, -, hout, -⟩ := rxByteFrame _ _ _ h
  rw [State.emittedByte, hout]

/-- A byte delivered at one end is a step there, and the rest of the system stands. -/
theorem System.perform_rxByte (y : System) (dest : Party) (b : Byte) :
    ∃ t, Machine.step ((y.link dest).setEvents (.rxByte b :: (y.link dest).events)) = .next t ∧
      y.perform dest (.rxByte b) = .next (y.setLink dest t) := by
  obtain ⟨t, ht⟩ := step_presented_completes (.rxByte b) (y.link dest).events (y.link dest)
  exact ⟨t, ht, by rw [System.perform_eq ht, step_rxByte_emits_nothing ht, System.carry]⟩

/-- Taking a byte off the wire leaves the links, so the delivery is a step of the same link. -/
theorem System.perform_rxByte_setWire (y : System) (dest : Party) (bytes : List Byte) (b : Byte) :
    ∃ t, Machine.step ((y.link dest).setEvents (.rxByte b :: (y.link dest).events)) = .next t ∧
      (y.setWire dest bytes).perform dest (.rxByte b) = .next ((y.setWire dest bytes).setLink dest t) := by
  have hperform := (y.setWire dest bytes).perform_rxByte dest b
  rwa [System.setWire_link] at hperform

/-- A wire that is written with what it holds stands. -/
theorem System.setWire_of_eq {y : System} {dest : Party} {bytes : List Byte} (h : y.wire dest = bytes) :
    y.setWire dest bytes = y := by
  subst h
  cases dest <;> rfl

/-- Settles O57: the insertion acts on every wire, the other behaviours on a byte of the wire where there is one. -/
theorem wireStepsActOnTheReceiverOnly : Obligations.WireStepsActOnTheReceiverOnly := by
  intro y dest c
  refine ⟨y.perform_rxByte dest c, fun b rest hwire => ?_, fun hempty => ?_⟩
  · simp only [System.step, hwire, rbPop_cons]
    exact ⟨y.perform_rxByte_setWire dest rest b, rfl, y.perform_rxByte_setWire dest rest c⟩
  · simp only [System.step, hempty, rbPop_nil, true_and, and_true]
    exact congrArg Host.Outcome.next (System.setWire_of_eq hempty)

/-! ### Equal identities (60_exceptions.md R215, 93_implementation_defined.md X3) -/

/-- A system of well-formed ends with one identity is refused by name. -/
theorem System.instantiate_of_equal_identities {pa pb : Params} (wireEcho : Bool) (ha : pa.wf = true) (hb : pb.wf = true)
    (hid : pa.localId = pb.localId) : System.instantiate pa pb wireEcho = .refused .equalIdentities := by
  rw [System.instantiate, if_neg (by simp [ha, hb]), if_pos hid]

/-- Settles O58: with one `MAGIC` the frames are the same at both ends, and the sender bit decides before the other bits. -/
theorem equalIdentitiesHearOnlyEchoes : Obligations.EqualIdentitiesHearOnlyEchoes := by
  refine ⟨fun pa pb m rest hmagic hid hsender hm => ?_, fun pa pb => System.instantiate_of_equal_identities⟩
  rw [encodeFrame_eq_of_magic_eq hmagic, decodeInstr_encodeFrame_append hm, toInstr_frameKind,
    if_pos (hsender.trans hid)]

end Sys2Proof.Machine
